-- ==== Sys2Proof/Word.lean ====
section
/-! DEFINITION. The words of the block: command words, line levels and array elements. -/

namespace Sys2Proof

/-- A command word: one 32-bit value, received whole (spec/30_encoding.md R55, spec/20_memory.md R39). -/
abbrev Word := BitVec 32

/-- The level of a line or the value of a one-bit flag: `true` is 1 (high), `false` is 0 (low)
(spec/00_scope.md R11). -/
abbrev Level := Bool

/-- An element of the correction array, 6 bits (spec/10_state.md R15). -/
abbrev Dot := BitVec 6

/-- An element of the brightness array, 12 bits (spec/10_state.md R17). -/
abbrev Grey := BitVec 12

end Sys2Proof
end

