-- ==== Sys2Proof/Config.lean ====
section
/-! DEFINITION. The implementation parameters of spec/00_scope.md R8, and the free values. -/

namespace Sys2Proof

/-- The parameter that an implementation fixes and that rules read: `N_CHIPS`, from 0 to 256
(spec/00_scope.md R8, the spec's decisions D6 and D7). DESIGN CHOICE (log 1, unsafe): State holds it,
no step writes it. -/
structure Config where
  nChips : Fin 257
  deriving DecidableEq, Repr

/-- `N_CH`, the number of channels: 16 for each chip (spec/00_scope.md R8). -/
def Config.nCh (g : Config) : Nat := 16 * g.nChips.val

/-- `L_DC`, the length of the programming shift in bits (spec/00_scope.md R8). -/
def Config.lDC (g : Config) : Nat := 96 * g.nChips.val

/-- `L_GS`, the length of the brightness shift in bits (spec/00_scope.md R8). -/
def Config.lGS (g : Config) : Nat := 192 * g.nChips.val

/-- `K_TICK`, the number of greyscale-clock periods between two ticks: OPEN, and no rule reads it
(spec/00_scope.md R8, spec/60_exceptions.md R141). Log 2, safe. -/
opaque Config.kTick : Nat

/-- FREE VALUE: which of several enabled agents moves next when no turn is listed
(spec/60_exceptions.md R137: any of them may be the next one). Log 4, safe. -/
opaque Config.freeRank : Nat → Nat

end Sys2Proof
end

