-- ==== Sys2Proof/Syntax.lean ====
section
/-! DEFINITION. The commands: one constructor for each row of spec/opcode_table.json. -/

namespace Sys2Proof

/-- A command of the block, as the decoder of spec/30_encoding.md R62 gives it. The ten values of `op`
that the table calls RESERVED are ten rows, so ten constructors (log 10). Operands are the unsigned
naturals of R57 and R58. -/
inductive Instr where
  /-- NOP, `op` = 0x0 (spec/41_driver_state_setters.md R77). -/
  | nop
  /-- SETDC(c, v), `op` = 0x1 (R72). -/
  | setdc (chan value : Nat)
  /-- SETGS(c, v), `op` = 0x2 (R74). -/
  | setgs (chan value : Nat)
  /-- COMMIT, `op` = 0x3 (R76). -/
  | commit
  /-- PROGRAM, `op` = 0x4 (spec/42_programming_sequencer.md R79). -/
  | program
  /-- TICK, `op` = 0x5 (spec/43_refresh_cycle_engine.md R91). -/
  | tick
  /-- RESERVED(0x6) (R78). -/
  | reserved6
  /-- RESERVED(0x7) (R78). -/
  | reserved7
  /-- RESERVED(0x8) (R78). -/
  | reserved8
  /-- RESERVED(0x9) (R78). -/
  | reserved9
  /-- RESERVED(0xA) (R78). -/
  | reservedA
  /-- RESERVED(0xB) (R78). -/
  | reservedB
  /-- RESERVED(0xC) (R78). -/
  | reservedC
  /-- RESERVED(0xD) (R78). -/
  | reservedD
  /-- RESERVED(0xE) (R78). -/
  | reservedE
  /-- RESERVED(0xF) (R78). -/
  | reservedF
  deriving DecidableEq, Repr

end Sys2Proof
end

