-- ==== Sys2Proof/WellFormed.lean ====
section
/-! DEFINITION. Which commands a word can carry: the operand ranges of spec/30_encoding.md. -/

namespace Sys2Proof

/-- The channel operand fits its 12-bit field: 0 to 4095 (spec/30_encoding.md R57). -/
def chanFits (c : Nat) : Bool := decide (c < 4096)

/-- The value operand fits its 16-bit field: 0 to 65535 (spec/30_encoding.md R58). -/
def valueFits (v : Nat) : Bool := decide (v < 65536)

/-- A command that a word carries. An operand outside its field cannot be encoded: it is refused, never
truncated (spec/30_encoding.md R65, spec/93_implementation_defined.md I7; log 11). -/
def Instr.wf : Instr → Bool
  | .setdc c v => chanFits c && valueFits v
  | .setgs c v => chanFits c && valueFits v
  | .nop => true
  | .commit => true
  | .program => true
  | .tick => true
  | .reserved6 => true
  | .reserved7 => true
  | .reserved8 => true
  | .reserved9 => true
  | .reservedA => true
  | .reservedB => true
  | .reservedC => true
  | .reservedD => true
  | .reservedE => true
  | .reservedF => true

end Sys2Proof
end

