-- ==== Sys2Proof/Decode.lean ====
section
/-! DEFINITION. The decoder and the encoder of format CMD32 (spec/30_encoding.md), and the opcode table. -/

namespace Sys2Proof

/-- The operation field `w[31:28]` (spec/30_encoding.md R55). -/
def opField (w : Word) : BitVec 4 := w.extractLsb' 28 4

/-- The channel field `w[27:16]` (spec/30_encoding.md R55). -/
def chanField (w : Word) : BitVec 12 := w.extractLsb' 16 12

/-- The value field `w[15:0]` (spec/30_encoding.md R55). -/
def valueField (w : Word) : BitVec 16 := w.extractLsb' 0 16

/-- The decoder of spec/30_encoding.md R62. It is total: every word decodes, by `w[31:28]` alone, and
SETDC and SETGS take their zero-extended operands (R57, R58). No word is refused (R60). The last arm
is `op` = 15, the one value of a 4-bit field that the others leave. -/
def decode (w : Word) : Instr :=
  match (opField w).toNat with
  | 0 => .nop
  | 1 => .setdc (chanField w).toNat (valueField w).toNat
  | 2 => .setgs (chanField w).toNat (valueField w).toNat
  | 3 => .commit
  | 4 => .program
  | 5 => .tick
  | 6 => .reserved6
  | 7 => .reserved7
  | 8 => .reserved8
  | 9 => .reserved9
  | 10 => .reservedA
  | 11 => .reservedB
  | 12 => .reservedC
  | 13 => .reservedD
  | 14 => .reservedE
  | _ => .reservedF

/-- The value of `op` for each command (spec/30_encoding.md R56). -/
def Instr.opcode : Instr → BitVec 4
  | .nop => 0x0
  | .setdc _ _ => 0x1
  | .setgs _ _ => 0x2
  | .commit => 0x3
  | .program => 0x4
  | .tick => 0x5
  | .reserved6 => 0x6
  | .reserved7 => 0x7
  | .reserved8 => 0x8
  | .reserved9 => 0x9
  | .reservedA => 0xA
  | .reservedB => 0xB
  | .reservedC => 0xC
  | .reservedD => 0xD
  | .reservedE => 0xE
  | .reservedF => 0xF

/-- A word in format CMD32 from its three fields (spec/30_encoding.md R55). -/
def cmd32 (op : BitVec 4) (chan : BitVec 12) (value : BitVec 16) : Word := op ++ chan ++ value

/-- The word an assembler writes for a command: `chan` and `value` are 0 where the command ignores them
(spec/30_encoding.md R59, R65). -/
def encode (i : Instr) : Word :=
  match i with
  | .setdc c v => cmd32 i.opcode (BitVec.ofNat 12 c) (BitVec.ofNat 16 v)
  | .setgs c v => cmd32 i.opcode (BitVec.ofNat 12 c) (BitVec.ofNat 16 v)
  | .nop => cmd32 i.opcode 0 0
  | .commit => cmd32 i.opcode 0 0
  | .program => cmd32 i.opcode 0 0
  | .tick => cmd32 i.opcode 0 0
  | .reserved6 => cmd32 i.opcode 0 0
  | .reserved7 => cmd32 i.opcode 0 0
  | .reserved8 => cmd32 i.opcode 0 0
  | .reserved9 => cmd32 i.opcode 0 0
  | .reservedA => cmd32 i.opcode 0 0
  | .reservedB => cmd32 i.opcode 0 0
  | .reservedC => cmd32 i.opcode 0 0
  | .reservedD => cmd32 i.opcode 0 0
  | .reservedE => cmd32 i.opcode 0 0
  | .reservedF => cmd32 i.opcode 0 0

/-- Whether the command reads the fields `chan` and `value` (spec/30_encoding.md R55, R59). -/
def Instr.hasOperands : Instr → Bool
  | .setdc _ _ => true
  | .setgs _ _ => true
  | .nop => false
  | .commit => false
  | .program => false
  | .tick => false
  | .reserved6 => false
  | .reserved7 => false
  | .reserved8 => false
  | .reserved9 => false
  | .reservedA => false
  | .reservedB => false
  | .reservedC => false
  | .reservedD => false
  | .reservedE => false
  | .reservedF => false

/-- The mnemonic of a command in spec/opcode_table.json. -/
def Instr.mnemonic : Instr → String
  | .nop => "NOP"
  | .setdc _ _ => "SETDC"
  | .setgs _ _ => "SETGS"
  | .commit => "COMMIT"
  | .program => "PROGRAM"
  | .tick => "TICK"
  | .reserved6 => "RESERVED"
  | .reserved7 => "RESERVED"
  | .reserved8 => "RESERVED"
  | .reserved9 => "RESERVED"
  | .reservedA => "RESERVED"
  | .reservedB => "RESERVED"
  | .reservedC => "RESERVED"
  | .reservedD => "RESERVED"
  | .reservedE => "RESERVED"
  | .reservedF => "RESERVED"

/-- A row of spec/opcode_table.json: a word is of the row when its bits under `mask` are `pattern`. -/
structure OpcodeRow where
  mnemonic : String
  pattern : Word
  mask : Word
  deriving DecidableEq, Repr

/-- The word has the row's fixed bits. -/
def OpcodeRow.covers (r : OpcodeRow) (w : Word) : Bool := w &&& r.mask == r.pattern

/-- spec/opcode_table.json, row by row. -/
def opcodeTable : List OpcodeRow :=
  [⟨"NOP", 0x00000000, 0xF0000000⟩, ⟨"SETDC", 0x10000000, 0xF0000000⟩,
   ⟨"SETGS", 0x20000000, 0xF0000000⟩, ⟨"COMMIT", 0x30000000, 0xF0000000⟩,
   ⟨"PROGRAM", 0x40000000, 0xF0000000⟩, ⟨"TICK", 0x50000000, 0xF0000000⟩,
   ⟨"RESERVED", 0x60000000, 0xF0000000⟩, ⟨"RESERVED", 0x70000000, 0xF0000000⟩] ++
  [⟨"RESERVED", 0x80000000, 0xF0000000⟩, ⟨"RESERVED", 0x90000000, 0xF0000000⟩,
   ⟨"RESERVED", 0xA0000000, 0xF0000000⟩, ⟨"RESERVED", 0xB0000000, 0xF0000000⟩,
   ⟨"RESERVED", 0xC0000000, 0xF0000000⟩, ⟨"RESERVED", 0xD0000000, 0xF0000000⟩,
   ⟨"RESERVED", 0xE0000000, 0xF0000000⟩, ⟨"RESERVED", 0xF0000000, 0xF0000000⟩]

/-- The command read from a word of `nbits` bits numbered as spec/opcode_table.json numbers them. Every
command is 32 bits (spec/30_encoding.md R63), so a longer word is refused and the bits above a shorter
one are 0 (log 15). -/
def decodeTableWord (nbits w : Nat) : Option Instr :=
  if nbits ≤ 32 ∧ w < 2 ^ nbits then some (decode (BitVec.ofNat 32 w)) else none

end Sys2Proof
end

