-- ==== Sys2Proof/Machine/State.lean ====
section
/-! DEFINITION. The state of the block (spec/10_state.md), as plain data, and its reset. -/

namespace Sys2Proof.Machine

/-- The five output lines of the block (spec/10_state.md R25). The sixth line, GSCLK, is the platform's
(R29). -/
inductive Line where
  /-- Serial clock. -/
  | sclk
  /-- Serial data. -/
  | sin
  /-- Latch. -/
  | xlat
  /-- Blank: high forces the outputs off. -/
  | blank
  /-- Program-select: high is the driven chip's programming mode. -/
  | vprg
  deriving DecidableEq, Repr

/-- The levels held on the five lines, S8 to S12 (spec/10_state.md R25). -/
structure Lines where
  sclk : Level
  sin : Level
  xlat : Level
  blank : Level
  vprg : Level
  deriving DecidableEq, Repr

/-- The reset levels (spec/10_state.md R26, R27, R28). -/
def Lines.reset : Lines := { sclk := false, sin := false, xlat := false, blank := true, vprg := true }

/-- One `drive` event of the trace (spec/48_receiver_observer.md R116). -/
structure Event where
  line : Line
  level : Level
  deriving DecidableEq, Repr

/-- The phases of the sequencer: the name of its next micro-step (spec/10_state.md R23). -/
inductive Phase where
  | idle
  /-- `P_DATA k`. -/
  | pData (k : Nat)
  /-- `P_CLKH k`. -/
  | pClkH (k : Nat)
  /-- `P_CLKL k`. -/
  | pClkL (k : Nat)
  | pXlatH
  | pXlatL
  | pUnblank
  | rBlank
  | rVprg
  | rXlatH
  | rXlatL
  | rClrLatch
  | rXclkH
  | rXclkL
  | rUnblank
  | rTest
  /-- `S_DATA k`. -/
  | sData (k : Nat)
  /-- `S_CLKH k`. -/
  | sClkH (k : Nat)
  /-- `S_CLKL k`. -/
  | sClkL (k : Nat)
  | sDone
  deriving DecidableEq, Repr

/-- The contract markers (spec/60_exceptions.md R126 to R134). -/
inductive Marker where
  /-- M1 TICK_BEFORE_PROGRAM (R126). -/
  | m1
  /-- M2 TICK_DURING_PROGRAM (R127). -/
  | m2
  /-- M3 PROGRAM_REPEATED (R128). -/
  | m3
  /-- M4 PROGRAM_AFTER_REFRESH (R129). -/
  | m4
  /-- M5 SETDC_AFTER_PROGRAM (R130). -/
  | m5
  /-- M6 TICK_OVERRUN (R131). -/
  | m6
  /-- M7 TICK_LOST (R132). -/
  | m7
  /-- M8 RESERVED_OPCODE (R133). -/
  | m8
  /-- M9 GS_WRITE_RACE (R134). -/
  | m9
  deriving DecidableEq, Repr

/-- `MARKERS`, a set of the nine markers: one bit each, so that equal sets are equal data
(spec/10_state.md R32; log 12). -/
structure Markers where
  m1 : Bool
  m2 : Bool
  m3 : Bool
  m4 : Bool
  m5 : Bool
  m6 : Bool
  m7 : Bool
  m8 : Bool
  m9 : Bool
  deriving DecidableEq, Repr

/-- The empty set of markers (spec/10_state.md R32). -/
def Markers.empty : Markers :=
  { m1 := false, m2 := false, m3 := false, m4 := false, m5 := false, m6 := false, m7 := false, m8 := false,
    m9 := false }

/-- The two input ports (spec/10_state.md R36). -/
inductive Port where
  | host
  | tick
  deriving DecidableEq, Repr

/-- Who moves in a step: one of the three agents of spec/00_scope.md R4, or the reset input of
spec/70_reset_and_hazards.md R146. -/
inductive Turn where
  /-- The host: the word at the head of the host port. -/
  | host
  /-- The tick source: the word at the head of the tick port. -/
  | tick
  /-- The sequencer: one micro-step. -/
  | sequencer
  /-- The reset input. -/
  | reset
  deriving DecidableEq, Repr

/-- The whole state: S1 to S12 and G1 to G4 of spec/10_state.md, the undelivered words of the two ports,
the parameter `N_CHIPS`, and the model's own record of who moves next. -/
structure State where
  /-- The parameter `N_CHIPS`, written by no step (spec/00_scope.md R8; log 1). -/
  cfg : Config
  /-- S1, the correction array `DC` (R15). -/
  dc : List Dot
  /-- S2, the brightness array `GS` (R17). -/
  gs : List Grey
  /-- S3, `PendingUpdate` (R19). -/
  pendingUpdate : Bool
  /-- S4, `PendingLatch` (R20). -/
  pendingLatch : Bool
  /-- S5, `first` (R21). -/
  first : Bool
  /-- S6, `tick_pending` (R22). -/
  tickPending : Bool
  /-- S7, `phase` (R23). -/
  phase : Phase
  /-- S8 to S12, `LINE.X` (R25). -/
  lines : Lines
  /-- G1, `MARKERS` (R32). -/
  markers : Markers
  /-- G2, `prog_issued` (R33). -/
  progIssued : Bool
  /-- G3, `refresh_started` (R33). -/
  refreshStarted : Bool
  /-- G4, `TRACE`, oldest event first (R34). -/
  trace : List Event
  /-- The undelivered words of the host port, the next to be taken first (R36, spec/20_memory.md R48;
  log 3). -/
  hostPort : List Word
  /-- The undelivered words of the tick port, the next to be taken first (log 3). -/
  tickPort : List Word
  /-- The model's own: who moves in the coming steps, as the outside gives it (log 4). -/
  turns : List Turn
  /-- The model's own: the argument of the free choice `Config.freeRank` (log 4). -/
  choices : Nat
  deriving DecidableEq, Repr

/-- Why the machine stops with a fault. The block itself raises none (spec/60_exceptions.md R125). -/
inductive Fault where
  /-- Raised by the micro-steps `P_DATA k` and `S_DATA k` when the element they read does not exist
  (spec/10_state.md R35). It needs an array shorter than `N_CH` or a `k` outside R23's range, which
  `State.Inv` rules out. Safe (log 9). -/
  | noSuchElement
  deriving DecidableEq, Repr

/-- Why an instruction has no meaning. -/
inductive Refusal where
  /-- Raised by an arm of `exec` that has no meaning yet, under the instruction's mnemonic. Safe. No arm
  of this model raises it. -/
  | notModelled (mnemonic : String)
  deriving DecidableEq, Repr

/-- The block right after reset, for every value of `N_CHIPS` (spec/70_reset_and_hazards.md R146,
spec/10_state.md R16, R18 to R22, R24, R26 to R28, R32 to R34). The ports and the turns are empty: what
the outside sends is not the block's (R147; logs 3 and 4). -/
def State.resetFor (n : Fin 257) : State :=
  { cfg := { nChips := n }
    dc := List.replicate (16 * n.val) 63
    gs := List.replicate (16 * n.val) 0
    pendingUpdate := false
    pendingLatch := false
    first := false
    tickPending := false
    phase := .idle
    lines := Lines.reset
    markers := Markers.empty
    progIssued := false
    refreshStarted := false
    trace := []
    hostPort := []
    tickPort := []
    turns := []
    choices := 0 }

/-- The machine right after reset: a block with one chip, the convention of spec/95_test_vectors.md.
DESIGN CHOICE (log 1, unsafe): the spec leaves `N_CHIPS` open; `State.resetFor` is the reset for every
value of it. -/
def State.reset : State := State.resetFor 1

end Sys2Proof.Machine
end

