-- ==== Sys2Proof/Machine/Ops.lean ====
section
/-! DEFINITION. The named operations over the state: lines, markers, phases, arrays, ports, acceptance,
the entry to and the return from a refresh, and reset. -/

namespace Sys2Proof.Machine

/-- What a step answers. -/
abbrev Result := Host.Outcome State Fault Refusal

/-! ### Lines -/

/-- The level of one line, `LINE.X` (spec/00_scope.md R11). -/
def Lines.get (l : Lines) : Line → Level
  | .sclk => l.sclk
  | .sin => l.sin
  | .xlat => l.xlat
  | .blank => l.blank
  | .vprg => l.vprg

/-- The levels after one line is set, `LINE.X <- b` (spec/00_scope.md R11). -/
def Lines.set (l : Lines) (x : Line) (b : Level) : Lines :=
  match x with
  | .sclk => { l with sclk := b }
  | .sin => { l with sin := b }
  | .xlat => { l with xlat := b }
  | .blank => { l with blank := b }
  | .vprg => { l with vprg := b }

/-- `drive(X, b)`: set the level of the line, then append the event to the trace
(spec/00_scope.md R11, spec/48_receiver_observer.md R116). -/
def State.drive (s : State) (x : Line) (b : Level) : State :=
  { s with lines := s.lines.set x b, trace := s.trace ++ [{ line := x, level := b }] }

/-- `phase <- p` (spec/00_scope.md R11). -/
def State.goto (s : State) (p : Phase) : State := { s with phase := p }

/-! ### Markers -/

/-- Whether a marker is in the set. -/
def Markers.has (ms : Markers) : Marker → Bool
  | .m1 => ms.m1
  | .m2 => ms.m2
  | .m3 => ms.m3
  | .m4 => ms.m4
  | .m5 => ms.m5
  | .m6 => ms.m6
  | .m7 => ms.m7
  | .m8 => ms.m8
  | .m9 => ms.m9

/-- The set with one marker added when `b` holds; no marker is ever taken out (spec/10_state.md R32). -/
def Markers.addIf (ms : Markers) (b : Bool) (m : Marker) : Markers :=
  match m with
  | .m1 => { ms with m1 := ms.m1 || b }
  | .m2 => { ms with m2 := ms.m2 || b }
  | .m3 => { ms with m3 := ms.m3 || b }
  | .m4 => { ms with m4 := ms.m4 || b }
  | .m5 => { ms with m5 := ms.m5 || b }
  | .m6 => { ms with m6 := ms.m6 || b }
  | .m7 => { ms with m7 := ms.m7 || b }
  | .m8 => { ms with m8 := ms.m8 || b }
  | .m9 => { ms with m9 := ms.m9 || b }

/-- `if b then mark(m)` (spec/00_scope.md R11, spec/60_exceptions.md section 2). -/
def State.markIf (s : State) (b : Bool) (m : Marker) : State :=
  { s with markers := s.markers.addIf b m }

/-! ### Phases -/

/-- The programming phases, "busy with programming" (spec/10_state.md R23). -/
def Phase.isP : Phase → Bool
  | .pData _ => true
  | .pClkH _ => true
  | .pClkL _ => true
  | .pXlatH => true
  | .pXlatL => true
  | .pUnblank => true
  | .idle => false
  | .rBlank => false
  | .rVprg => false
  | .rXlatH => false
  | .rXlatL => false
  | .rClrLatch => false
  | .rXclkH => false
  | .rXclkL => false
  | .rUnblank => false
  | .rTest => false
  | .sData _ => false
  | .sClkH _ => false
  | .sClkL _ => false
  | .sDone => false

/-- The refresh phases (spec/10_state.md R23). -/
def Phase.isR : Phase → Bool
  | .rBlank => true
  | .rVprg => true
  | .rXlatH => true
  | .rXlatL => true
  | .rClrLatch => true
  | .rXclkH => true
  | .rXclkL => true
  | .rUnblank => true
  | .rTest => true
  | .idle => false
  | .pData _ => false
  | .pClkH _ => false
  | .pClkL _ => false
  | .pXlatH => false
  | .pXlatL => false
  | .pUnblank => false
  | .sData _ => false
  | .sClkH _ => false
  | .sClkL _ => false
  | .sDone => false

/-- The clock-out phases (spec/10_state.md R23). -/
def Phase.isS : Phase → Bool
  | .sData _ => true
  | .sClkH _ => true
  | .sClkL _ => true
  | .sDone => true
  | .idle => false
  | .pData _ => false
  | .pClkH _ => false
  | .pClkL _ => false
  | .pXlatH => false
  | .pXlatL => false
  | .pUnblank => false
  | .rBlank => false
  | .rVprg => false
  | .rXlatH => false
  | .rXlatL => false
  | .rClrLatch => false
  | .rXclkH => false
  | .rXclkL => false
  | .rUnblank => false
  | .rTest => false

/-- "Busy with refresh": an R or an S phase (spec/10_state.md R23). -/
def Phase.isRefresh (p : Phase) : Bool := p.isR || p.isS

/-! ### The channel arrays -/

/-- `DC[c] <- v` for a channel of the block; any other channel changes nothing
(spec/10_state.md R35, spec/41_driver_state_setters.md R72). -/
def State.writeDc (s : State) (c : Nat) (v : Dot) : State :=
  { s with dc := if c < s.cfg.nCh then s.dc.set c v else s.dc }

/-- `GS[c] <- v` for a channel of the block; any other channel changes nothing
(spec/10_state.md R35, spec/41_driver_state_setters.md R74). -/
def State.writeGs (s : State) (c : Nat) (v : Grey) : State :=
  { s with gs := if c < s.cfg.nCh then s.gs.set c v else s.gs }

/-! ### Acceptance -/

/-- Whether the step of a command may be taken (spec/41_driver_state_setters.md R71). -/
def accepts (i : Instr) (s : State) : Bool :=
  match i with
  | .tick => true
  | .program => s.phase == .idle
  | .nop => !s.phase.isP
  | .setdc _ _ => !s.phase.isP
  | .setgs _ _ => !s.phase.isP
  | .commit => !s.phase.isP
  | .reserved6 => !s.phase.isP
  | .reserved7 => !s.phase.isP
  | .reserved8 => !s.phase.isP
  | .reserved9 => !s.phase.isP
  | .reservedA => !s.phase.isP
  | .reservedB => !s.phase.isP
  | .reservedC => !s.phase.isP
  | .reservedD => !s.phase.isP
  | .reservedE => !s.phase.isP
  | .reservedF => !s.phase.isP

/-- The command step of `i` with the effect `f`. A command that is not accepted holds its port: it has no
effect and waits (spec/41_driver_state_setters.md R71, spec/20_memory.md R48; log 7). -/
def whenAccepted (i : Instr) (s : State) (f : State → State) : Result :=
  if accepts i s then .next (f s) else .next s

/-! ### Entry to and return from a refresh invocation -/

/-- The refresh start: the one entry to an invocation, taken from `IDLE`. It saves nothing, samples
program-select and goes to `R_BLANK` (spec/43_refresh_cycle_engine.md R93, spec/60_exceptions.md R138). -/
def refreshStart (s : State) : State :=
  { s with tickPending := false, refreshStarted := true, first := s.lines.vprg, phase := .rBlank }

/-- The return from an invocation: its result becomes `PendingLatch`, `first` is cleared and nothing is
restored (spec/44_serial_clock_out.md R106, R111, spec/60_exceptions.md R139). -/
def endInvocation (s : State) (latchNext : Bool) : State :=
  { s with pendingLatch := latchNext, first := false, phase := .idle }

/-! ### Reset -/

/-- The reset input: every piece of the block's state goes to its reset value, whatever the block was
doing. The words a port has not delivered, the parameter and the turns to come are outside the block and
stay (spec/70_reset_and_hazards.md R146, R147; log 5). -/
def State.resetBlock (s : State) : State :=
  { State.resetFor s.cfg.nChips with
    hostPort := s.hostPort, tickPort := s.tickPort, turns := s.turns, choices := s.choices }

/-! ### Ports -/

/-- The undelivered words of a port. -/
def State.port (s : State) : Port → List Word
  | .host => s.hostPort
  | .tick => s.tickPort

/-- The state with other undelivered words on a port. -/
def State.setPort (s : State) (p : Port) (ws : List Word) : State :=
  match p with
  | .host => { s with hostPort := ws }
  | .tick => { s with tickPort := ws }

/-- The turn of the agent that owns a port (spec/30_encoding.md R64). -/
def Port.turn : Port → Turn
  | .host => .host
  | .tick => .tick

end Sys2Proof.Machine
end

