-- ==== Sys2Proof/Machine/Operands.lean ====
section
/-! DEFINITION. Operands: the clamps of the setters and the bit that each shift position selects. -/

namespace Sys2Proof.Machine

/-- `clampDC(v)`, for every natural `v` (spec/41_driver_state_setters.md R73). -/
def clampDc (v : Nat) : Nat := if v ≥ 64 then 63 else v

/-- `clampGS(v)`, for every natural `v` (spec/41_driver_state_setters.md R75). -/
def clampGs (v : Nat) : Nat := if v ≥ 4096 then 4095 else v

/-- The stored form of a clamped correction value. -/
def dotOf (v : Nat) : Dot := BitVec.ofNat 6 (clampDc v)

/-- The stored form of a clamped brightness value. -/
def greyOf (v : Nat) : Grey := BitVec.ofNat 12 (clampGs v)

/-- `dcbit(k)`: bit 5 - (k mod 6) of `DC[k div 6]`, or none where that element does not exist
(spec/42_programming_sequencer.md R80). -/
def dcBit (dc : List Dot) (k : Nat) : Option Level :=
  (dc[k / 6]?).map fun d => d.getLsbD (5 - k % 6)

/-- `gsbit(k)`: bit 11 - (k mod 12) of `GS[k div 12]`, or none where that element does not exist
(spec/44_serial_clock_out.md R107). -/
def gsBit (gs : List Grey) (k : Nat) : Option Level :=
  (gs[k / 12]?).map fun g => g.getLsbD (11 - k % 12)

end Sys2Proof.Machine
end

