-- ==== Sys2Proof/Machine/Flags.lean ====
section
/-! DEFINITION. The markers each command adds and the conditions that choose the next phase. -/

namespace Sys2Proof.Machine

/-- M5 of a SETDC: a PROGRAM was accepted before it, whatever the channel
(spec/60_exceptions.md R130). -/
def State.markSetdc (s : State) : State := s.markIf s.progIssued .m5

/-- M9 of a SETGS: the channel is in range and the write can be seen by a shift already requested or in
progress (spec/60_exceptions.md R134). -/
def State.markSetgs (s : State) (c : Nat) : State :=
  s.markIf (decide (c < s.cfg.nCh) && (s.pendingUpdate || s.phase.isS)) .m9

/-- M3 and M4 of a PROGRAM (spec/60_exceptions.md R128, R129). -/
def State.markProgram (s : State) : State :=
  (s.markIf s.progIssued .m3).markIf s.refreshStarted .m4

/-- M1, M2, M6 and M7 of a TICK (spec/60_exceptions.md R126, R127, R131, R132). -/
def State.markTick (s : State) : State :=
  (((s.markIf (!s.progIssued) .m1).markIf s.phase.isP .m2).markIf s.phase.isRefresh .m6).markIf
    s.tickPending .m7

/-- `after_latch` (spec/43_refresh_cycle_engine.md R92). -/
def State.afterLatch (s : State) : Phase := if s.first then .rXclkH else .rUnblank

/-- `after_vprg` (spec/43_refresh_cycle_engine.md R92). -/
def State.afterVprg (s : State) : Phase := if s.pendingLatch then .rXlatH else s.afterLatch

/-- `after_blank` (spec/43_refresh_cycle_engine.md R92). -/
def State.afterBlank (s : State) : Phase := if s.first then .rVprg else s.afterVprg

end Sys2Proof.Machine
end

