-- ==== Sys2Proof/Machine/Programming.lean ====
section
/-! DEFINITION. The Programming Sequencer: PROGRAM and the P micro-steps
(spec/42_programming_sequencer.md). -/

namespace Sys2Proof.Machine

/-- Where PROGRAM starts: the first bit, or the latch where there is none (R79, R89). -/
def programEntry (g : Config) : Phase := if g.lDC > 0 then .pData 0 else .pXlatH

/-- PROGRAM: the markers, `prog_issued <- 1` and the first phase; no line is driven (R79). -/
def execProgram (s : State) : Result :=
  whenAccepted .program s fun s =>
    { s.markProgram with progIssued := true, phase := programEntry s.cfg }

/-- `P_DATA k` (R81). -/
def stepPData (k : Nat) (s : State) : Result :=
  match dcBit s.dc k with
  | some b => .next ((s.drive .sin b).goto (.pClkH k))
  | none => .fault .noSuchElement

/-- `P_CLKH k` (R82). -/
def stepPClkH (k : Nat) (s : State) : Result := .next ((s.drive .sclk true).goto (.pClkL k))

/-- `P_CLKL k` (R83). -/
def stepPClkL (k : Nat) (s : State) : Result :=
  .next ((s.drive .sclk false).goto (if k + 1 < s.cfg.lDC then .pData (k + 1) else .pXlatH))

/-- `P_XLATH` (R84). -/
def stepPXlatH (s : State) : Result := .next ((s.drive .xlat true).goto .pXlatL)

/-- `P_XLATL` (R85). -/
def stepPXlatL (s : State) : Result := .next ((s.drive .xlat false).goto .pUnblank)

/-- `P_UNBLANK`: the sequence ends; VPRG is not driven (R86). -/
def stepPUnblank (s : State) : Result := .next ((s.drive .blank false).goto .idle)

end Sys2Proof.Machine
end

