-- ==== Sys2Proof/Machine/Refresh.lean ====
section
/-! DEFINITION. The Refresh Cycle Engine: TICK, the refresh start and the R micro-steps
(spec/43_refresh_cycle_engine.md). -/

namespace Sys2Proof.Machine

/-- TICK: the markers, and `tick_pending <- 1`; a tick received while one is pending is lost (R91). -/
def execTick (s : State) : Result :=
  whenAccepted .tick s fun s => { s.markTick with tickPending := true }

/-- `IDLE`: the refresh start when a tick is pending; otherwise the sequencer has no step and all state is
kept (R93, spec/60_exceptions.md R145; log 6). -/
def stepIdle (s : State) : Result := if s.tickPending then .next (refreshStart s) else .next s

/-- `R_BLANK`, step (a) (R94). -/
def stepRBlank (s : State) : Result := .next ((s.drive .blank true).goto s.afterBlank)

/-- `R_VPRG` (R95). -/
def stepRVprg (s : State) : Result := .next ((s.drive .vprg false).goto s.afterVprg)

/-- `R_XLATH`, step (b) (R96). -/
def stepRXlatH (s : State) : Result := .next ((s.drive .xlat true).goto .rXlatL)

/-- `R_XLATL`, step (b) (R97). -/
def stepRXlatL (s : State) : Result := .next ((s.drive .xlat false).goto .rClrLatch)

/-- `R_CLRLATCH`, step (b): no line is driven (R98). -/
def stepRClrLatch (s : State) : Result :=
  .next (State.goto { s with pendingLatch := false } s.afterLatch)

/-- `R_XCLKH`, step (c): SIN is not driven (R99). -/
def stepRXclkH (s : State) : Result := .next ((s.drive .sclk true).goto .rXclkL)

/-- `R_XCLKL`, step (c) (R100). -/
def stepRXclkL (s : State) : Result := .next ((s.drive .sclk false).goto .rUnblank)

/-- `R_UNBLANK`, step (d) (R101). -/
def stepRUnblank (s : State) : Result := .next ((s.drive .blank false).goto .rTest)

end Sys2Proof.Machine
end

