-- ==== Sys2Proof/Machine/Setters.lean ====
section
/-! DEFINITION. Driver State & Setters: NOP, SETDC, SETGS, COMMIT and the reserved words
(spec/41_driver_state_setters.md). -/

namespace Sys2Proof.Machine

/-- NOP: no state change and no marker (R77). -/
def execNop (s : State) : Result := whenAccepted .nop s fun s => s

/-- SETDC(c, v) (R72, R73). -/
def execSetdc (c v : Nat) (s : State) : Result :=
  whenAccepted (.setdc c v) s fun s => s.markSetdc.writeDc c (dotOf v)

/-- SETGS(c, v) (R74, R75). -/
def execSetgs (c v : Nat) (s : State) : Result :=
  whenAccepted (.setgs c v) s fun s => (s.markSetgs c).writeGs c (greyOf v)

/-- COMMIT: `PendingUpdate <- 1` (R76). -/
def execCommit (s : State) : Result :=
  whenAccepted .commit s fun s => { s with pendingUpdate := true }

/-- What every reserved word does: no change of hardware state, `mark(M8)` (R78). -/
def reservedEffect (s : State) : State := s.markIf true .m8

/-- RESERVED(0x6) (R78). -/
def execReserved6 (s : State) : Result := whenAccepted .reserved6 s reservedEffect

/-- RESERVED(0x7) (R78). -/
def execReserved7 (s : State) : Result := whenAccepted .reserved7 s reservedEffect

/-- RESERVED(0x8) (R78). -/
def execReserved8 (s : State) : Result := whenAccepted .reserved8 s reservedEffect

/-- RESERVED(0x9) (R78). -/
def execReserved9 (s : State) : Result := whenAccepted .reserved9 s reservedEffect

/-- RESERVED(0xA) (R78). -/
def execReservedA (s : State) : Result := whenAccepted .reservedA s reservedEffect

/-- RESERVED(0xB) (R78). -/
def execReservedB (s : State) : Result := whenAccepted .reservedB s reservedEffect

/-- RESERVED(0xC) (R78). -/
def execReservedC (s : State) : Result := whenAccepted .reservedC s reservedEffect

/-- RESERVED(0xD) (R78). -/
def execReservedD (s : State) : Result := whenAccepted .reservedD s reservedEffect

/-- RESERVED(0xE) (R78). -/
def execReservedE (s : State) : Result := whenAccepted .reservedE s reservedEffect

/-- RESERVED(0xF) (R78). -/
def execReservedF (s : State) : Result := whenAccepted .reservedF s reservedEffect

end Sys2Proof.Machine
end

