-- ==== Sys2Proof/Machine/Dispatch.lean ====
section
/-! DEFINITION. The command step: one meaning for each constructor of Instr. -/

namespace Sys2Proof.Machine

/-- The command step of `i`, the same whichever port brings it (spec/30_encoding.md R64). -/
def exec (i : Instr) (s : State) : Host.Outcome State Fault Refusal :=
  match i with
  -- Driver State & Setters
  | .nop => Sys2Proof.Machine.execNop s
  | .setdc c v => Sys2Proof.Machine.execSetdc c v s
  | .setgs c v => Sys2Proof.Machine.execSetgs c v s
  | .commit => Sys2Proof.Machine.execCommit s
  -- Programming Sequencer
  | .program => Sys2Proof.Machine.execProgram s
  -- Refresh Cycle Engine
  | .tick => Sys2Proof.Machine.execTick s
  -- Reserved words
  | .reserved6 => Sys2Proof.Machine.execReserved6 s
  | .reserved7 => Sys2Proof.Machine.execReserved7 s
  | .reserved8 => Sys2Proof.Machine.execReserved8 s
  | .reserved9 => Sys2Proof.Machine.execReserved9 s
  | .reservedA => Sys2Proof.Machine.execReservedA s
  | .reservedB => Sys2Proof.Machine.execReservedB s
  | .reservedC => Sys2Proof.Machine.execReservedC s
  | .reservedD => Sys2Proof.Machine.execReservedD s
  | .reservedE => Sys2Proof.Machine.execReservedE s
  | .reservedF => Sys2Proof.Machine.execReservedF s

end Sys2Proof.Machine
end

