-- ==== Sys2Proof/Machine/ClockOut.lean ====
section
/-! DEFINITION. Serial Clock-Out: the gate R_TEST and the S micro-steps (spec/44_serial_clock_out.md). -/

namespace Sys2Proof.Machine

/-- Where a clock-out starts: the first bit, or its end where there is none (R106, R115). -/
def clockOutEntry (g : Config) : Phase := if g.lGS > 0 then .sData 0 else .sDone

/-- `R_TEST`: the test-and-clear of `PendingUpdate`, one step (R106, spec/20_memory.md R51). -/
def stepRTest (s : State) : Result :=
  if s.pendingUpdate then .next (State.goto { s with pendingUpdate := false } (clockOutEntry s.cfg))
  else .next (endInvocation s false)

/-- `S_DATA k` (R108). -/
def stepSData (k : Nat) (s : State) : Result :=
  match gsBit s.gs k with
  | some b => .next ((s.drive .sin b).goto (.sClkH k))
  | none => .fault .noSuchElement

/-- `S_CLKH k` (R109). -/
def stepSClkH (k : Nat) (s : State) : Result := .next ((s.drive .sclk true).goto (.sClkL k))

/-- `S_CLKL k` (R110). -/
def stepSClkL (k : Nat) (s : State) : Result :=
  .next ((s.drive .sclk false).goto (if k + 1 < s.cfg.lGS then .sData (k + 1) else .sDone))

/-- `S_DONE`: the result true; no line is driven (R111). -/
def stepSDone (s : State) : Result := .next (endInvocation s true)

end Sys2Proof.Machine
end

