-- ==== Sys2Proof/Machine/Sequencer.lean ====
section
/-! DEFINITION. The sequencer: its micro-step by phase, and runs of it. -/

namespace Sys2Proof.Machine

/-- One micro-step of the sequencer: the phase names it (spec/10_state.md R23, spec/00_scope.md R12). -/
def microStep (s : State) : Result :=
  match s.phase with
  | .idle => stepIdle s
  | .pData k => stepPData k s
  | .pClkH k => stepPClkH k s
  | .pClkL k => stepPClkL k s
  | .pXlatH => stepPXlatH s
  | .pXlatL => stepPXlatL s
  | .pUnblank => stepPUnblank s
  | .rBlank => stepRBlank s
  | .rVprg => stepRVprg s
  | .rXlatH => stepRXlatH s
  | .rXlatL => stepRXlatL s
  | .rClrLatch => stepRClrLatch s
  | .rXclkH => stepRXclkH s
  | .rXclkL => stepRXclkL s
  | .rUnblank => stepRUnblank s
  | .rTest => stepRTest s
  | .sData k => stepSData k s
  | .sClkH k => stepSClkH k s
  | .sClkL k => stepSClkL k s
  | .sDone => stepSDone s

/-- Whether the sequencer has a step: it is not idle, or a tick is pending
(spec/43_refresh_cycle_engine.md R93, spec/60_exceptions.md R145). -/
def sequencerEnabled (s : State) : Bool := s.phase != .idle || s.tickPending

/-- `n` micro-steps of the sequencer with no step of another agent between them. -/
def runSequencer : Nat → State → Result
  | 0, s => .next s
  | n + 1, s =>
    match microStep s with
    | .next t => runSequencer n t
    | .fault r => .fault r
    | .refused r => .refused r

end Sys2Proof.Machine
end

