-- ==== Sys2Proof/Machine/Turns.lean ====
section
/-! DEFINITION. Who moves: the command step at a port, the micro-step, reset, and the choice among them. -/

namespace Sys2Proof.Machine

/-- The turn of a port: its head word is decoded and, when accepted, taken off the port and its command
step done. A word that is not accepted stays at the head and holds the port; an empty port has no step
(spec/20_memory.md R48, spec/41_driver_state_setters.md R71, spec/30_encoding.md R64). -/
def portStep (p : Port) (s : State) : Result :=
  match s.port p with
  | [] => .next s
  | w :: ws => if accepts (decode w) s then exec (decode w) (s.setPort p ws) else .next s

/-- Whether the agent of a port has an enabled step: its head word is accepted. -/
def portEnabled (p : Port) (s : State) : Bool :=
  match s.port p with
  | [] => false
  | w :: _ => accepts (decode w) s

/-- The step of one turn (spec/00_scope.md R4, R12, spec/70_reset_and_hazards.md R146). -/
def turnStep (t : Turn) (s : State) : Result :=
  match t with
  | .host => portStep .host s
  | .tick => portStep .tick s
  | .sequencer => microStep s
  | .reset => .next s.resetBlock

/-- The agents with an enabled step; any of them may be the next (spec/00_scope.md R12,
spec/60_exceptions.md R137). -/
def enabledTurns (s : State) : List Turn :=
  (if portEnabled .host s then [Turn.host] else []) ++
    (if portEnabled .tick s then [Turn.tick] else []) ++
      (if sequencerEnabled s then [Turn.sequencer] else [])

/-- The whole step. A listed turn is taken. With none listed, the only enabled agent moves; of several,
one moves by a free choice; with none enabled, all state is kept
(spec/60_exceptions.md R137, R145; logs 4 and 6). -/
def takeTurn (s : State) : Result :=
  match s.turns with
  | t :: ts => turnStep t { s with turns := ts }
  | [] =>
    match enabledTurns s with
    | [] => .next s
    | [t] => turnStep t s
    | t :: u :: us =>
      turnStep ((t :: u :: us).getD (Config.freeRank s.choices % (us.length + 2)) t)
        { s with choices := s.choices + 1 }

/-- The state with one more word at the head of a port, and the turn of that port next: the word is
the next one the block takes (log 8). -/
def State.place (s : State) (p : Port) (w : Word) : State :=
  { s.setPort p (w :: s.port p) with turns := p.turn :: s.turns }

end Sys2Proof.Machine
end

