-- ==== Sys2Proof/Machine/Step.lean ====
section
/-! DEFINITION. One step of the machine, and how a command word is placed for the next step. -/

namespace Sys2Proof.Machine

/-- One step: one agent's command step or micro-step, or reset (spec/20_memory.md R47). -/
def step (s : State) : Host.Outcome State Fault Refusal := takeTurn s

/-- The state with the command word `w` at the head of the host port and the host's turn next, so that the
next step takes it. The bits above `nbits` are 0 (logs 8 and 15). -/
def State.withFetchWord (s : State) (nbits w : Nat) : State :=
  s.place .host (BitVec.ofNat 32 (w % 2 ^ nbits))

end Sys2Proof.Machine
end

