-- ==== Sys2Proof/Machine/Assembler.lean ====
section
/-! DEFINITION. Test programs: the assembler syntax, the pseudo-instructions and the schedule directives of
spec/30_encoding.md R65 to R70. They are notation for words and for one interleaving (D30); the hardware
has no such command. -/

namespace Sys2Proof.Machine

/-! ### Lines of a program and their words -/

/-- The command forms of R65. -/
inductive AsmCommand where
  | nop
  | setdc (chan value : Nat)
  | setgs (chan value : Nat)
  | commit
  | program
  | tick
  | word (w : Nat)
  deriving DecidableEq, Repr

/-- A line of a test program: a command with an optional port tag (R65), a directive (R66) or a
pseudo-instruction (R67 to R70). -/
inductive AsmLine where
  | command (tag : Option Port) (c : AsmCommand)
  | settle
  | runTo (p : Phase)
  | frame (vs : List Nat)
  | fill (v : Nat)
  | dcfill (v : Nat)
  | boot
  deriving DecidableEq, Repr

/-- What a program issues: a word on a port, or a directive. -/
inductive TestItem where
  | word (p : Port) (w : Word)
  | settle
  | runTo (p : Phase)
  deriving DecidableEq, Repr

/-- The word of a command whose operands fit their fields. An operand outside its field is refused, never
truncated (R65). -/
def encodeIfFits (i : Instr) : Option Word := if i.wf then some (encode i) else none

/-- The word of a command form (R65). -/
def assembleCommand : AsmCommand → Option Word
  | .nop => encodeIfFits .nop
  | .setdc c v => encodeIfFits (.setdc c v)
  | .setgs c v => encodeIfFits (.setgs c v)
  | .commit => encodeIfFits .commit
  | .program => encodeIfFits .program
  | .tick => encodeIfFits .tick
  | .word w => if w < 2 ^ 32 then some (BitVec.ofNat 32 w) else none

/-- The port of a command: its tag, or the host port, except that `tick` goes to the tick port (R65). -/
def portOf (tag : Option Port) (c : AsmCommand) : Port :=
  match tag with
  | some p => p
  | none =>
    match c with
    | .tick => .tick
    | .nop => .host
    | .setdc _ _ => .host
    | .setgs _ _ => .host
    | .commit => .host
    | .program => .host
    | .word _ => .host

/-- One command as an item. -/
def commandItem (tag : Option Port) (c : AsmCommand) : Option TestItem :=
  (assembleCommand c).map (.word (portOf tag c))

/-- All the items, or none if one is refused. -/
def allItems : List (Option TestItem) → Option (List TestItem)
  | [] => some []
  | none :: _ => none
  | some x :: xs => (allItems xs).map (x :: ·)

/-- `setgs c, v` for the values from channel `c` on, in order, on the host port (R67). -/
def frameFrom (c : Nat) : List Nat → List (Option TestItem)
  | [] => []
  | v :: vs => commandItem (some .host) (.setgs c v) :: frameFrom (c + 1) vs

/-- The items of a line. `frame` has exactly `N_CH` values (R67); `fill` and `dcfill` write every channel in
order, with no commit (R68, R69); `boot` is `program`, `.settle` (R70). -/
def assembleLine (g : Config) : AsmLine → Option (List TestItem)
  | .command tag c => allItems [commandItem tag c]
  | .settle => some [.settle]
  | .runTo p => some [.runTo p]
  | .frame vs =>
    if vs.length = g.nCh then allItems (frameFrom 0 vs ++ [commandItem (some .host) .commit]) else none
  | .fill v => allItems ((List.range g.nCh).map fun c => commandItem none (.setgs c v))
  | .dcfill v => allItems ((List.range g.nCh).map fun c => commandItem none (.setdc c v))
  | .boot => (allItems [commandItem none .program]).map (· ++ [.settle])

/-- The items of a program, or none if a line is refused. -/
def assemble (g : Config) : List AsmLine → Option (List TestItem)
  | [] => some []
  | l :: ls =>
    match assembleLine g l, assemble g ls with
    | some xs, some ys => some (xs ++ ys)
    | some _, none => none
    | none, _ => none

/-! ### The one interleaving of a program -/

/-- The sequencer is idle and no tick is pending (R66). -/
def settled (s : State) : Bool := s.phase == .idle && !s.tickPending

/-- Micro-steps until `stop` holds or the sequencer has no step, at most `n` of them. -/
def runUntil (stop : State → Bool) : Nat → State → Result
  | 0, s => .next s
  | n + 1, s =>
    if stop s || !sequencerEnabled s then .next s
    else
      match microStep s with
      | .next t => runUntil stop n t
      | .fault r => .fault r
      | .refused r => .refused r

/-- Enough micro-steps to end the sequence under way and one further invocation
(spec/70_reset_and_hazards.md R158). -/
def settleFuel (g : Config) : Nat := 3 * g.lDC + 6 * g.lGS + 32

/-- The sequencer runs until it is idle with no tick pending (R66). -/
def runToSettled (s : State) : Result := runUntil settled (settleFuel s.cfg) s

/-- One item. A word that holds waits while the sequencer steps, and is then taken at its port; `.at`
runs the sequencer until its next micro-step is the named phase (R66). -/
def runItem (x : TestItem) (s : State) : Result :=
  match x with
  | .word p w =>
    match runUntil (accepts (decode w)) (settleFuel s.cfg) s with
    | .next t => portStep p (t.setPort p (w :: t.port p))
    | .fault r => .fault r
    | .refused r => .refused r
  | .settle => runToSettled s
  | .runTo p => runUntil (fun t => t.phase == p) (settleFuel s.cfg) s

/-- A whole program: its items in order, then the sequencer runs until it is settled (R66). -/
def runProgram : List TestItem → State → Result
  | [], s => runToSettled s
  | x :: xs, s =>
    match runItem x s with
    | .next t => runProgram xs t
    | .fault r => .fault r
    | .refused r => .refused r

/-! ### The text of a program (R65, R66) -/

/-- A space or a tab. -/
def isBlankChar (c : Char) : Bool := c == ' ' || c == '\t'

/-- The text without blanks at either end. -/
def trimChars (cs : List Char) : List Char :=
  ((cs.dropWhile isBlankChar).reverse.dropWhile isBlankChar).reverse

/-- The pieces between the separators `sep`. -/
def splitChars (sep : Char) : List Char → List (List Char)
  | [] => [[]]
  | c :: cs =>
    if c == sep then [] :: splitChars sep cs
    else
      match splitChars sep cs with
      | [] => [[c]]
      | p :: ps => (c :: p) :: ps

/-- The value of a digit in base 16, if it is one. -/
def hexDigit (c : Char) : Option Nat :=
  if '0' ≤ c ∧ c ≤ '9' then some (c.toNat - '0'.toNat)
  else if 'a' ≤ c ∧ c ≤ 'f' then some (c.toNat - 'a'.toNat + 10)
  else if 'A' ≤ c ∧ c ≤ 'F' then some (c.toNat - 'A'.toNat + 10)
  else none

/-- The digits of a number in a base, onto the value so far. -/
def digitsFrom (base acc : Nat) : List Char → Option Nat
  | [] => some acc
  | c :: cs =>
    match hexDigit c with
    | some d => if d < base then digitsFrom base (base * acc + d) cs else none
    | none => none

/-- A natural in decimal, or with prefix `0x` in hexadecimal (R65). -/
def parseNat (cs : List Char) : Option Nat :=
  match trimChars cs with
  | [] => none
  | '0' :: 'x' :: d :: ds => digitsFrom 16 0 (d :: ds)
  | c :: rest => digitsFrom 10 0 (c :: rest)

/-- All the naturals, or none if one is not a natural. -/
def parseNats : List (List Char) → Option (List Nat)
  | [] => some []
  | p :: ps =>
    match parseNat p, parseNats ps with
    | some n, some ns => some (n :: ns)
    | some _, none => none
    | none, _ => none

/-- The operands after a mnemonic, separated by commas; none are written where there are none (R65). -/
def parseOperands (cs : List Char) : Option (List Nat) :=
  match trimChars cs with
  | [] => some []
  | c :: rest => parseNats (splitChars ',' (c :: rest))

/-- The phases without a bit index, by name (spec/10_state.md R23). -/
def plainPhases : List (List Char × Phase) :=
  [(['I', 'D', 'L', 'E'], .idle), (['P', '_', 'X', 'L', 'A', 'T', 'H'], .pXlatH),
   (['P', '_', 'X', 'L', 'A', 'T', 'L'], .pXlatL), (['P', '_', 'U', 'N', 'B', 'L', 'A', 'N', 'K'], .pUnblank),
   (['R', '_', 'B', 'L', 'A', 'N', 'K'], .rBlank), (['R', '_', 'V', 'P', 'R', 'G'], .rVprg)] ++
  [(['R', '_', 'X', 'L', 'A', 'T', 'H'], .rXlatH), (['R', '_', 'X', 'L', 'A', 'T', 'L'], .rXlatL),
   (['R', '_', 'C', 'L', 'R', 'L', 'A', 'T', 'C', 'H'], .rClrLatch),
   (['R', '_', 'X', 'C', 'L', 'K', 'H'], .rXclkH), (['R', '_', 'X', 'C', 'L', 'K', 'L'], .rXclkL),
   (['R', '_', 'U', 'N', 'B', 'L', 'A', 'N', 'K'], .rUnblank), (['R', '_', 'T', 'E', 'S', 'T'], .rTest),
   (['S', '_', 'D', 'O', 'N', 'E'], .sDone)]

/-- The phases with a bit index, by name (spec/10_state.md R23). -/
def indexedPhase (name : List Char) (k : Nat) : Option Phase :=
  if name = ['P', '_', 'D', 'A', 'T', 'A'] then some (.pData k)
  else if name = ['P', '_', 'C', 'L', 'K', 'H'] then some (.pClkH k)
  else if name = ['P', '_', 'C', 'L', 'K', 'L'] then some (.pClkL k)
  else if name = ['S', '_', 'D', 'A', 'T', 'A'] then some (.sData k)
  else if name = ['S', '_', 'C', 'L', 'K', 'H'] then some (.sClkH k)
  else if name = ['S', '_', 'C', 'L', 'K', 'L'] then some (.sClkL k)
  else none

/-- A phase by its name, with its bit index where it has one (R66). -/
def parsePhase (cs : List Char) : Option Phase :=
  match (trimChars cs).span (fun c => !isBlankChar c) with
  | (name, []) => (plainPhases.find? fun p => p.1 == name).map Prod.snd
  | (name, c :: rest) => (parseNat (c :: rest)).bind (indexedPhase name)

/-- A command form from its mnemonic and operands (R65). -/
def commandOf (name : List Char) (args : List Nat) : Option AsmCommand :=
  if name = ['n', 'o', 'p'] ∧ args = [] then some .nop
  else if name = ['c', 'o', 'm', 'm', 'i', 't'] ∧ args = [] then some .commit
  else if name = ['p', 'r', 'o', 'g', 'r', 'a', 'm'] ∧ args = [] then some .program
  else if name = ['t', 'i', 'c', 'k'] ∧ args = [] then some .tick
  else
    match args with
    | [w] => if name = ['.', 'w', 'o', 'r', 'd'] then some (.word w) else none
    | [c, v] =>
      if name = ['s', 'e', 't', 'd', 'c'] then some (.setdc c v)
      else if name = ['s', 'e', 't', 'g', 's'] then some (.setgs c v)
      else none
    | [] => none
    | _ :: _ :: _ :: _ => none

/-- A directive without a phase or a pseudo-instruction, from its name and operands (R66 to R70). -/
def pseudoOf (name : List Char) (args : List Nat) : Option AsmLine :=
  if name = ['f', 'r', 'a', 'm', 'e'] then some (.frame args)
  else if name = ['b', 'o', 'o', 't'] ∧ args = [] then some .boot
  else if name = ['.', 's', 'e', 't', 't', 'l', 'e'] ∧ args = [] then some .settle
  else
    match args with
    | [v] =>
      if name = ['f', 'i', 'l', 'l'] then some (.fill v)
      else if name = ['d', 'c', 'f', 'i', 'l', 'l'] then some (.dcfill v)
      else none
    | [] => none
    | _ :: _ :: _ => none

/-- A line after its comment and its tag are taken off. A tag stands before a command form only (log 16). -/
def parseBody (tag : Option Port) (cs : List Char) : Option AsmLine :=
  match (trimChars cs).span (fun c => !isBlankChar c) with
  | (name, rest) =>
    if name = ['.', 'a', 't'] ∧ tag = none then (parsePhase rest).map .runTo
    else
      (parseOperands rest).bind fun args =>
        match commandOf name args with
        | some c => some (.command tag c)
        | none => if tag = none then pseudoOf name args else none

/-- One line of text: none where it is refused, and `some none` where it is empty or a comment. A `;` begins
a comment, and a line may begin with a port tag (R65). -/
def parseLine (cs : List Char) : Option (Option AsmLine) :=
  match trimChars (cs.takeWhile fun c => c != ';') with
  | [] => some none
  | 'h' :: 'o' :: 's' :: 't' :: ':' :: rest => (parseBody (some .host) rest).map some
  | 't' :: 'i' :: 'c' :: 'k' :: ':' :: rest => (parseBody (some .tick) rest).map some
  | c :: rest => (parseBody none (c :: rest)).map some

/-- The lines of a program's text, one command a line; none if one is refused (R65). -/
def parseLines : List (List Char) → Option (List AsmLine)
  | [] => some []
  | l :: ls =>
    match parseLine l, parseLines ls with
    | some (some x), some xs => some (x :: xs)
    | some none, some xs => some xs
    | some _, none => none
    | none, _ => none

/-- The program of a text. -/
def parseProgram (text : List Char) : Option (List AsmLine) := parseLines (splitChars '\n' text)

end Sys2Proof.Machine
end

