-- ==== Sys2Proof/Machine/Receiver.lean ====
section
/-! DEFINITION. The line trace as an observer reads it, and the reference receiver: functions of the
trace, no part of the block (spec/48_receiver_observer.md). -/

namespace Sys2Proof.Machine

/-! ### Levels and edges -/

/-- The levels after one event (R116). -/
def Lines.after (l : Lines) (e : Event) : Lines := l.set e.line e.level

/-- The levels after a list of events: the last event of each line, or its level at the start when there
is none (R116). -/
def levelsAfter (l : Lines) (es : List Event) : Lines := es.foldl Lines.after l

/-- The event is a rising edge of its line, from the levels just before it (R116). -/
def isRise (l : Lines) (e : Event) : Bool := e.level && !l.get e.line

/-- The event is a falling edge of its line (R116). -/
def isFall (l : Lines) (e : Event) : Bool := !e.level && l.get e.line

/-- The event is a rising edge of line `x`. -/
def isRiseOf (x : Line) (l : Lines) (e : Event) : Bool := e.line == x && isRise l e

/-- The captured stream from given levels: SIN at each rising edge of SCLK, in order (R117). -/
def captureFrom (l : Lines) : List Event → List Level
  | [] => []
  | e :: es =>
    if isRiseOf .sclk l e then l.sin :: captureFrom (l.after e) es else captureFrom (l.after e) es

/-- `capture(TRACE)` (R117). -/
def capture (tr : List Event) : List Level := captureFrom Lines.reset tr

/-- The indices of the rising edges of XLAT, the first event counted as `i` (R117). -/
def latchesFrom (l : Lines) (i : Nat) : List Event → List Nat
  | [] => []
  | e :: es =>
    if isRiseOf .xlat l e then i :: latchesFrom (l.after e) (i + 1) es
    else latchesFrom (l.after e) (i + 1) es

/-- `latches(TRACE)` (R117). -/
def latches (tr : List Event) : List Nat := latchesFrom Lines.reset 0 tr

/-! ### The receiver -/

/-- The receiver's registers; a cell is `none` where its value is unknown (R118). -/
structure Receiver where
  /-- `SR`, `L_GS` cells, the oldest first. -/
  sr : List (Option Level)
  /-- `DCR[0..N_CH-1]`. -/
  dcr : List (Option Dot)
  /-- `GSR[0..N_CH-1]`. -/
  gsr : List (Option Grey)
  deriving DecidableEq, Repr

/-- The receiver at reset: every cell unknown (R118, R124). -/
def Receiver.reset (g : Config) : Receiver :=
  { sr := List.replicate g.lGS none, dcr := List.replicate g.nCh none, gsr := List.replicate g.nCh none }

/-- All the cells' values, or none if one is unknown. -/
def allKnown : List (Option Level) → Option (List Level)
  | [] => some []
  | none :: _ => none
  | some b :: cs => (allKnown cs).map (b :: ·)

/-- A list of bits read as a number, the most significant bit first (R120). -/
def msbFirst (bs : List Level) : Nat := bs.foldl (fun n b => 2 * n + b.toNat) 0

/-- `bits(SR, i, n)`: unknown if one of the cells is (R120). -/
def bitsAt (sr : List (Option Level)) (i n : Nat) : Option Nat :=
  (allKnown ((sr.drop i).take n)).map msbFirst

/-- The rising edge of SCLK: SIN is the newest cell and the oldest is dropped (R119). With no chip `SR`
has no cell and stays so (R118; log 14). -/
def Receiver.shift (r : Receiver) (sin : Level) : Receiver :=
  { r with sr := (r.sr ++ [some sin]).drop 1 }

/-- The rising edge of XLAT: the newest bits go to the register program-select names (R120). -/
def Receiver.latch (r : Receiver) (g : Config) (vprg : Level) : Receiver :=
  if vprg then
    { r with dcr := (List.range g.nCh).map fun c =>
        (bitsAt r.sr (g.lGS - g.lDC + 6 * c) 6).map (BitVec.ofNat 6) }
  else
    { r with gsr := (List.range g.nCh).map fun c =>
        (bitsAt r.sr (12 * c) 12).map (BitVec.ofNat 12) }

/-- One event, with the levels just before it; only the rising edges of SCLK and XLAT change the receiver
(R118 to R120). -/
def Receiver.onEvent (r : Receiver) (g : Config) (l : Lines) (e : Event) : Receiver :=
  if isRiseOf .sclk l e then r.shift l.sin
  else if isRiseOf .xlat l e then r.latch g l.vprg
  else r

/-- The receiver after a list of events (R118). -/
def receiveFrom (g : Config) (l : Lines) (r : Receiver) : List Event → Receiver
  | [] => r
  | e :: es => receiveFrom g (l.after e) (r.onEvent g l e) es

/-- The receiver of a trace: a function of it (R5, R118). -/
def receive (g : Config) (tr : List Event) : Receiver :=
  receiveFrom g Lines.reset (Receiver.reset g) tr

/-- What a channel's output does (R123). -/
inductive Output where
  /-- Forced off by BLANK. -/
  | off
  /-- Driven by `GSR[c]` with trim `DCR[c]`; either may be unknown. -/
  | driven (grey : Option Grey) (dot : Option Dot)
  deriving DecidableEq, Repr

/-- The visible output of channel `c` (R123). How it becomes light is the chip's (R124). -/
def visible (g : Config) (tr : List Event) (c : Nat) : Output :=
  if (levelsAfter Lines.reset tr).blank then .off
  else .driven ((receive g tr).gsr.getD c none) ((receive g tr).dcr.getD c none)

end Sys2Proof.Machine
end

