-- ==== Sys2Proof/Safety.lean ====
section
/-! DEFINITION. What a state of the block is, and what a safe run is, in the terms the claims use. -/

namespace Sys2Proof.Machine

/-! ### The invariant: what every state that a run reaches has -/

/-- Both arrays hold one element for each channel (spec/10_state.md R15, R17). -/
abbrev State.ArraysFit (s : State) : Prop := s.dc.length = s.cfg.nCh ∧ s.gs.length = s.cfg.nCh

/-- The bit index of a phase is in range (spec/10_state.md R23). -/
def Phase.fits (g : Config) : Phase → Bool
  | .pData k | .pClkH k | .pClkL k => decide (k < g.lDC)
  | .sData k | .sClkH k | .sClkL k => decide (k < g.lGS)
  | _ => true

/-- The phases before which SCLK is high: its falling edge is the next micro-step. -/
def Phase.clockHigh : Phase → Bool
  | .pClkL _ | .sClkL _ | .rXclkL => true
  | _ => false

/-- The phases before which XLAT is high. -/
def Phase.latchHigh : Phase → Bool
  | .pXlatL | .rXlatL => true
  | _ => false

/-- The phases of an invocation between its `(BLANK, 1)` and its `(BLANK, 0)`
(spec/43_refresh_cycle_engine.md R103). -/
def Phase.blanked : Phase → Bool
  | .rVprg | .rXlatH | .rXlatL | .rClrLatch | .rXclkH | .rXclkL | .rUnblank => true
  | _ => false

/-- The phases taken only in a first invocation (R95, R99, R100). -/
def Phase.firstOnly : Phase → Bool
  | .rVprg | .rXclkH | .rXclkL => true
  | _ => false

/-- The phases before program-select is sampled away: in them `first` equals the level of VPRG (R93). -/
def Phase.beforeVprg : Phase → Bool
  | .rBlank | .rVprg => true
  | _ => false

/-- The phases of the deferred latch (R96 to R98). -/
def Phase.latching : Phase → Bool
  | .rXlatH | .rXlatL | .rClrLatch => true
  | _ => false

/-- The phases of an invocation after its deferred latch (spec/44_serial_clock_out.md R112). -/
def Phase.afterLatching : Phase → Bool
  | .rXclkH | .rXclkL | .rUnblank | .rTest | .sData _ | .sClkH _ | .sClkL _ | .sDone => true
  | _ => false

/-- SCLK and XLAT are high exactly where the sequence has raised them; BLANK is high in the blanked part of
an invocation. -/
abbrev State.LinesFollowPhase (s : State) : Prop :=
  s.lines.sclk = s.phase.clockHigh ∧ s.lines.xlat = s.phase.latchHigh ∧
    (s.phase.blanked = true → s.lines.blank = true)

/-- `first` is 0 outside an invocation, 1 in the phases of a first one, and the sampled level of VPRG until
VPRG falls (spec/10_state.md R21, spec/43_refresh_cycle_engine.md R93). -/
abbrev State.FirstFollowsPhase (s : State) : Prop :=
  (s.phase.isRefresh = false → s.first = false) ∧ (s.phase.firstOnly = true → s.first = true) ∧
    (s.phase.beforeVprg = true → s.first = s.lines.vprg)

/-- `PendingLatch` is 1 in the latch phases, 0 after them, and 0 in a first invocation
(spec/43_refresh_cycle_engine.md R102, spec/44_serial_clock_out.md R112). -/
abbrev State.LatchFollowsPhase (s : State) : Prop :=
  (s.phase.latching = true → s.pendingLatch = true) ∧
    (s.phase.afterLatching = true → s.pendingLatch = false) ∧ (s.first = true → s.pendingLatch = false)

/-- Before the first refresh VPRG is 1 and nothing awaits a latch; once it has started, VPRG is 0 for good
(spec/10_state.md R28). -/
abbrev State.SelectFollowsRefresh (s : State) : Prop :=
  (s.refreshStarted = false →
      s.lines.vprg = true ∧ s.pendingLatch = false ∧ s.phase.isRefresh = false) ∧
    (s.refreshStarted = true → s.phase.beforeVprg = false → s.lines.vprg = false)

/-- A programming sequence was issued; BLANK is high until something enables the outputs, and through a
programming sequence that broke no contract (spec/42_programming_sequencer.md R90). -/
abbrev State.ProgramFollowsIssue (s : State) : Prop :=
  (s.phase.isP = true → s.progIssued = true) ∧
    (s.progIssued = false → s.refreshStarted = false → s.lines.blank = true) ∧
      (s.phase.isP = true → s.markers.m3 = false → s.markers.m4 = false →
        s.lines.blank = true ∧ s.refreshStarted = false)

/-- The trace accounts for the levels of the lines (spec/48_receiver_observer.md R116). -/
abbrev State.TraceMatchesLines (s : State) : Prop := levelsAfter Lines.reset s.trace = s.lines

/-- The invariant of the block. -/
abbrev State.Inv (s : State) : Prop :=
  s.ArraysFit ∧ s.phase.fits s.cfg = true ∧ s.LinesFollowPhase ∧ s.FirstFollowsPhase ∧
    s.LatchFollowsPhase ∧ s.SelectFollowsRefresh ∧ s.ProgramFollowsIssue ∧ s.TraceMatchesLines

/-! ### Safe traces -/

/-- Every `(XLAT, 1)` event happens while BLANK is 1, from given levels
(spec/43_refresh_cycle_engine.md R103). -/
def latchesBlanked (l : Lines) : List Event → Bool
  | [] => true
  | e :: es => (!(e == { line := .xlat, level := true }) || l.blank) && latchesBlanked (l.after e) es

/-- Every event on SCLK or XLAT is an edge, from given levels (spec/48_receiver_observer.md R116). -/
def edgesOnly (l : Lines) : List Event → Bool
  | [] => true
  | e :: es =>
    (!(e.line == .sclk || e.line == .xlat) || isRise l e || isFall l e) && edgesOnly (l.after e) es

/-- Blanking brackets every latch of the trace, unless a PROGRAM was repeated (M3) or came after a refresh
(M4) (spec/43_refresh_cycle_engine.md R103). -/
abbrev State.LatchesBracketed (s : State) : Prop :=
  s.markers.m3 = false → s.markers.m4 = false → latchesBlanked Lines.reset s.trace = true

/-- Every SCLK and XLAT event of the trace is an edge (spec/48_receiver_observer.md R116). -/
abbrev State.EventsAreEdges (s : State) : Prop := edgesOnly Lines.reset s.trace = true

/-! ### Runs from reset -/

/-- The block at reset with everything the outside will send: the words of the two ports and the turns.
Every run of the block is a run from such a state. -/
def State.resetWith (n : Fin 257) (host tick : List Word) (turns : List Turn) (choices : Nat) : State :=
  { State.resetFor n with hostPort := host, tickPort := tick, turns := turns, choices := choices }

/-- The next step is a reset. -/
abbrev State.resetNext (s : State) : Prop := s.turns.head? = some .reset

/-- The word `w` is taken from port `p` in the next step if the step is that port's. -/
abbrev State.takes (s : State) (p : Port) (w : Word) : Prop :=
  (s.port p).head? = some w ∧ accepts (decode w) s = true

/-- The state less its ghost part G1 to G4: two states with the same one have the same hardware state and
the same inputs (spec/10_state.md R31). -/
def State.withoutGhost (s : State) : State :=
  { s with markers := Markers.empty, progIssued := false, refreshStarted := false, trace := [] }

/-! ### The events of whole sequences -/

/-- The three events of one shifted bit (spec/42_programming_sequencer.md R81 to R83). -/
def bitEvents (b : Level) : List Event :=
  [{ line := .sin, level := b }, { line := .sclk, level := true }, { line := .sclk, level := false }]

/-- `dcbit(0)`, ..., `dcbit(L_DC - 1)` (spec/42_programming_sequencer.md R80). -/
def dcBits (g : Config) (dc : List Dot) : List Level :=
  (List.range g.lDC).map fun k => (dc.getD (k / 6) 0).getLsbD (5 - k % 6)

/-- `gsbit(0)`, ..., `gsbit(L_GS - 1)` (spec/44_serial_clock_out.md R107). -/
def gsBits (g : Config) (gs : List Grey) : List Level :=
  (List.range g.lGS).map fun k => (gs.getD (k / 12) 0).getLsbD (11 - k % 12)

/-- The events of a programming sequence (spec/42_programming_sequencer.md R88). -/
def programEvents (g : Config) (dc : List Dot) : List Event :=
  (dcBits g dc).flatMap bitEvents ++
    [{ line := .xlat, level := true }, { line := .xlat, level := false }, { line := .blank, level := false }]

/-- The events of a shift (spec/44_serial_clock_out.md R112). -/
def shiftEvents (g : Config) (gs : List Grey) : List Event := (gsBits g gs).flatMap bitEvents

/-- The events of an invocation before its `R_TEST` (spec/43_refresh_cycle_engine.md R102). -/
def invocationEvents (first latch : Bool) : List Event :=
  [{ line := .blank, level := true }] ++ (if first then [{ line := .vprg, level := false }] else []) ++
    (if latch then [{ line := .xlat, level := true }, { line := .xlat, level := false }] else []) ++
      (if first then [{ line := .sclk, level := true }, { line := .sclk, level := false }] else []) ++
        [{ line := .blank, level := false }]

/-- The micro-steps of an invocation before its `R_TEST`, the refresh start among them
(spec/70_reset_and_hazards.md R158). -/
def invocationSteps (first latch : Bool) : Nat :=
  3 + (if first then 3 else 0) + (if latch then 3 else 0)

end Sys2Proof.Machine
end

