-- ==== Sys2Proof/Certificates/Slice0/Obligations.lean ====
section
/-! DEFINITION. The statements for the provers. Each docstring names the rule of spec/ it formalises. -/

open Sys2Proof Sys2Proof.Machine

/-! ### Encoding -/

/-- The decoder inverts the encoder on every command with operands in their fields
(spec/30_encoding.md R55 to R59, R62: the spec's decisions D2 to D6). -/
def Obligations.DecodeInvertsEncode : Prop :=
  ∀ i : Instr, i.wf = true → decode (encode i) = i

/-- The encoder inverts the decoder, but for the fields that a command ignores, which it writes as 0
(spec/30_encoding.md R59, decision D4). -/
def Obligations.EncodeInvertsDecodeUpToIgnoredFields : Prop :=
  ∀ w : Word, encode (decode w) = if (decode w).hasOperands then w else cmd32 (opField w) 0 0

/-- Every word has the fixed bits of exactly one row of the opcode table, decodes to that row's command,
and has operands within their fields (spec/30_encoding.md R60, R62, decision D3). -/
def Obligations.EveryWordIsOfOneTableRow : Prop :=
  ∀ w : Word, (decode w).wf = true ∧
    ∃ r, opcodeTable.filter (fun r => r.covers w) = [r] ∧ r.pattern = cmd32 (opField w) 0 0 ∧
      r.mnemonic = (decode w).mnemonic ∧ (decode w).opcode = opField w

/-- Words of spec/95_test_vectors.md (V1 to V11) decode to the commands they stand for. -/
def Obligations.SpecWordsDecode : Prop :=
  decode 0x00000000 = .nop ∧ decode 0x0ABCDEF0 = .nop ∧ decode 0x1003002A = .setdc 3 42 ∧
    decode 0x1FFFFFFF = .setdc 4095 65535 ∧ decode 0x20010ABC = .setgs 1 2748 ∧
      decode 0x30000000 = .commit ∧ decode 0x3FFFFFFF = .commit ∧ decode 0x4000FFFF = .program ∧
        decode 0x5123ABCD = .tick ∧ decode 0x60000000 = .reserved6 ∧ decode 0xF0000001 = .reservedF

/-! ### Who moves -/

/-- At the turn of a port, a step is the command step of the decoded head word when it is accepted, with the
word taken off its port; a word that is not accepted stays and nothing changes but the turn
(spec/20_memory.md R48, spec/41_driver_state_setters.md R71: decisions D16, D21, D32). The model's own
choices here: that the next turn is listed (log 4), that a word not accepted waits on its port (log 7), and
the whole last clause, that a word placed by `withFetchWord` is the next one run (log 8, DESIGN CHOICE). -/
def Obligations.StepRunsTheDecodedCommand : Prop :=
  (∀ (p : Port) (w : Word) (ws : List Word) (ts : List Turn) (s : State),
    s.turns = p.turn :: ts → s.port p = w :: ws →
      (accepts (decode w) s = true →
        step s = exec (decode w) (State.setPort { s with turns := ts } p ws)) ∧
      (accepts (decode w) s = false → step s = .next { s with turns := ts })) ∧
  (∀ (s : State) (w : Nat), accepts (decode (BitVec.ofNat 32 w)) s = true → w < 2 ^ 32 →
    step (s.withFetchWord 32 w) = exec (decode (BitVec.ofNat 32 w)) s)

/-- The other turns: the sequencer's is its micro-step and an empty port has no step (spec/00_scope.md R12:
decision D16; the turns are log 4). The last clause, that with no turn listed and no agent enabled the step
answers the state itself, is the model's choice (log 6, DESIGN CHOICE): spec/60_exceptions.md R145 (decision
D28) says only that all state is kept. -/
def Obligations.OtherTurns : Prop :=
  (∀ (ts : List Turn) (s : State), s.turns = .sequencer :: ts → step s = microStep { s with turns := ts }) ∧
  (∀ (p : Port) (ts : List Turn) (s : State), s.turns = p.turn :: ts → s.port p = [] →
    step s = .next { s with turns := ts }) ∧
  (∀ s : State, s.turns = [] → s.hostPort = [] → s.tickPort = [] → s.phase = .idle →
    s.tickPending = false → step s = .next s)

/-- With no turn listed, the step is the turn of an agent that has an enabled step, whichever the free
choice gives (spec/60_exceptions.md R137, decisions D16 and D20; the choice is log 4), or the state itself
when no agent has one (log 6, DESIGN CHOICE). It holds for every value of the free choice. -/
def Obligations.UnlistedTurnIsAnEnabledAgents : Prop :=
  ∀ s : State, s.turns = [] →
    (enabledTurns s = [] ∧ step s = .next s) ∨
      ∃ t ∈ enabledTurns s, ∃ c, step s = turnStep t { s with choices := c }

/-! ### Reset -/

/-- At reset, for every number of chips, the correction array holds 63 in every channel and the brightness
array 0, and neither has another channel (spec/10_state.md R16, R18). -/
def Obligations.ResetArrayDefaults : Prop :=
  ∀ (n : Fin 257) (c : Nat),
    (State.resetFor n).dc[c]? = (if c < 16 * n.val then some 63 else none) ∧
      (State.resetFor n).gs[c]? = (if c < 16 * n.val then some 0 else none)

/-- A reset turn puts every piece of the block's state to its reset value, whatever the block was doing, and
keeps the undelivered words (spec/70_reset_and_hazards.md R146, R147: decisions D10, D11, D24; log 5 for
what is kept). -/
def Obligations.ResetTurnRestoresEverything : Prop :=
  ∀ (s : State) (ts : List Turn), s.turns = .reset :: ts →
    ∃ t, step s = .next t ∧ t.dc = List.replicate s.cfg.nCh 63 ∧ t.gs = List.replicate s.cfg.nCh 0 ∧
      t.pendingUpdate = false ∧ t.pendingLatch = false ∧ t.first = false ∧ t.tickPending = false ∧
      t.phase = .idle ∧ t.lines = { sclk := false, sin := false, xlat := false, blank := true, vprg := true } ∧
      (∀ m, t.markers.has m = false) ∧ t.progIssued = false ∧ t.refreshStarted = false ∧ t.trace = [] ∧
      t.cfg = s.cfg ∧ t.hostPort = s.hostPort ∧ t.tickPort = s.tickPort ∧ t.turns = ts ∧
      t.choices = s.choices

/-- The block at reset meets the invariant and the two rules on its trace, for every number of chips and
whatever the outside will send (spec/70_reset_and_hazards.md R146: decisions D10, D11, D24; logs 1, 3, 4). -/
def Obligations.ResetMeetsInvariant : Prop :=
  ∀ (n : Fin 257) (host tick : List Word) (turns : List Turn) (choices : Nat),
    (State.resetWith n host tick turns choices).Inv ∧
      (State.resetWith n host tick turns choices).LatchesBracketed ∧
        (State.resetWith n host tick turns choices).EventsAreEdges

/-! ### Commands: acceptance, results and frames -/

/-- Which commands are accepted: TICK always, PROGRAM in `IDLE`, every other one outside the P phases; one
that is not accepted changes nothing (spec/41_driver_state_setters.md R71, decisions D16 and D21; log 7). -/
def Obligations.AcceptanceFollowsPhase : Prop :=
  ∀ (i : Instr) (s : State),
    (i = .tick → accepts i s = true) ∧ (i = .program → (accepts i s = true ↔ s.phase = .idle)) ∧
      (i ≠ .tick → i ≠ .program → (accepts i s = true ↔ s.phase.isP = false)) ∧
        (accepts i s = false → exec i s = .next s)

/-- NOP completes and changes nothing (spec/41_driver_state_setters.md R77, decision D3). -/
def Obligations.NopChangesNothing : Prop :=
  ∀ s : State, s.phase.isP = false → exec .nop s = .next s

/-- SETDC completes: the channel, if it is one of the block's, holds min(v, 63); M5 is added when a PROGRAM
was accepted before, whatever the channel; nothing else changes (spec/41_driver_state_setters.md section 2;
M5 is decision D22). -/
def Obligations.SetdcStoresTheClampedValue : Prop :=
  ∀ (c v : Nat) (s : State), s.ArraysFit → s.phase.isP = false →
    ∃ t, exec (.setdc c v) s = .next t ∧
      (∀ j, t.dc[j]? =
        if j = c ∧ c < s.cfg.nCh then some (BitVec.ofNat 6 (min v 63)) else s.dc[j]?) ∧
      (∀ m, t.markers.has m = (s.markers.has m || (decide (m = .m5) && s.progIssued))) ∧
      { t with dc := s.dc, markers := s.markers } = s

/-- SETGS completes: the channel, if it is one of the block's, holds min(v, 4095); M9 is added when the
channel is the block's and the write can be seen by a shift requested or in progress; nothing else changes
(spec/41_driver_state_setters.md section 3; M9 is decisions D22 and D29). -/
def Obligations.SetgsStoresTheClampedValue : Prop :=
  ∀ (c v : Nat) (s : State), s.ArraysFit → s.phase.isP = false →
    ∃ t, exec (.setgs c v) s = .next t ∧
      (∀ j, t.gs[j]? =
        if j = c ∧ c < s.cfg.nCh then some (BitVec.ofNat 12 (min v 4095)) else s.gs[j]?) ∧
      (∀ m, t.markers.has m =
        (s.markers.has m ||
          (decide (m = .m9) && (decide (c < s.cfg.nCh) && (s.pendingUpdate || s.phase.isS))))) ∧
      { t with gs := s.gs, markers := s.markers } = s

/-- COMMIT completes: `PendingUpdate` is 1 and nothing else changes
(spec/41_driver_state_setters.md R76). -/
def Obligations.CommitSetsPendingUpdate : Prop :=
  ∀ s : State, s.phase.isP = false → exec .commit s = .next { s with pendingUpdate := true }

/-- Every reserved word (`op` 6 to 15) completes: M8 is added and nothing else changes
(spec/41_driver_state_setters.md R78, decision D3). The ten commands are Instr.reserved6 to
Instr.reservedF. -/
def Obligations.ReservedWordOnlyAddsM8 : Prop :=
  ∀ (i : Instr) (s : State), 6 ≤ i.opcode.toNat → s.phase.isP = false →
    ∃ t, exec i s = .next t ∧ (∀ m, t.markers.has m = (s.markers.has m || decide (m = .m8))) ∧
      { t with markers := s.markers } = s

/-- PROGRAM in `IDLE` completes: M3 if one was issued before, M4 if a refresh has started, `prog_issued` is 1
and the sequence starts at its first bit, or at the latch with no chip; nothing else changes, no line among
it (spec/42_programming_sequencer.md R79; markers and acceptance are decisions D21 and D22). -/
def Obligations.ProgramStartsTheSequence : Prop :=
  ∀ s : State, s.phase = .idle →
    ∃ t, exec .program s = .next t ∧ t.progIssued = true ∧
      t.phase = (if s.cfg.nChips.val = 0 then .pXlatH else .pData 0) ∧
      (∀ m, t.markers.has m =
        (s.markers.has m || (decide (m = .m3) && s.progIssued) || (decide (m = .m4) && s.refreshStarted))) ∧
      { t with progIssued := s.progIssued, phase := s.phase, markers := s.markers } = s

/-- TICK completes in every state: `tick_pending` is 1; M1 before any PROGRAM, M2 in a P phase, M6 in an R or
S phase, M7 when a tick was pending; nothing else changes (spec/43_refresh_cycle_engine.md R91, decisions D19
and D22). -/
def Obligations.TickRecordsOneTick : Prop :=
  ∀ s : State,
    ∃ t, exec .tick s = .next t ∧ t.tickPending = true ∧
      (∀ m, t.markers.has m =
        (s.markers.has m || (decide (m = .m1) && !s.progIssued) || (decide (m = .m2) && s.phase.isP) ||
          (decide (m = .m6) && (s.phase.isR || s.phase.isS)) || (decide (m = .m7) && s.tickPending))) ∧
      { t with tickPending := s.tickPending, markers := s.markers } = s

/-- The clamps, for every natural: the result is within the element's range, equals the operand when that is,
and is the minimum with the largest value; the stored element has it as its number
(spec/41_driver_state_setters.md R73, R75). -/
def Obligations.ClampsStayInRange : Prop :=
  ∀ v : Nat,
    (clampDc v = if v ≥ 64 then 63 else v) ∧ clampDc v = min v 63 ∧ clampDc v ≤ 63 ∧
      (v ≤ 63 → clampDc v = v) ∧ (dotOf v).toNat = min v 63 ∧
    (clampGs v = if v ≥ 4096 then 4095 else v) ∧ clampGs v = min v 4095 ∧ clampGs v ≤ 4095 ∧
      (v ≤ 4095 → clampGs v = v) ∧ (greyOf v).toNat = min v 4095

/-- The setters and COMMIT are idempotent; a setter drives no line, sets no flag and writes its own array
alone; a read by the sequencer has no effect but the drive of its bit, and no micro-step writes an array
(spec/20_memory.md R44). -/
def Obligations.SettersAndCommitAreIdempotent : Prop :=
  (∀ (i : Instr) (s t : State), (∃ c v, i = .setdc c v ∨ i = .setgs c v) ∨ i = .commit →
    exec i s = .next t → exec i t = .next t) ∧
  (∀ (c v : Nat) (s t : State), exec (.setdc c v) s = .next t →
    { t with dc := s.dc, markers := s.markers } = s) ∧
  (∀ (c v : Nat) (s t : State), exec (.setgs c v) s = .next t →
    { t with gs := s.gs, markers := s.markers } = s) ∧
  (∀ (k : Nat) (s t : State), s.phase = .pData k ∨ s.phase = .sData k → microStep s = .next t →
    { t with lines := s.lines, trace := s.trace, phase := s.phase } = s) ∧
  (∀ s t : State, microStep s = .next t → t.dc = s.dc ∧ t.gs = s.gs)

/-- What no command changes: the lines and the trace, `PendingLatch`, `first`, `refresh_started`, the
parameter, the inputs; and what one command alone changes (spec/10_state.md section 1, the writers of each
piece of state; spec/00_scope.md R4: the sequencer alone drives a line). -/
def Obligations.CommandFrame : Prop :=
  ∀ (i : Instr) (s t : State), exec i s = .next t →
    (t.lines = s.lines ∧ t.trace = s.trace ∧ t.pendingLatch = s.pendingLatch ∧ t.first = s.first ∧
      t.refreshStarted = s.refreshStarted ∧ t.cfg = s.cfg ∧ t.hostPort = s.hostPort ∧
      t.tickPort = s.tickPort ∧ t.turns = s.turns ∧ t.choices = s.choices) ∧
    (i ≠ .program → t.phase = s.phase ∧ t.progIssued = s.progIssued) ∧
    (i ≠ .tick → t.tickPending = s.tickPending) ∧ (i ≠ .commit → t.pendingUpdate = s.pendingUpdate) ∧
    (i.opcode ≠ 1 → t.dc = s.dc) ∧ (i.opcode ≠ 2 → t.gs = s.gs)

/-! ### Micro-steps -/

/-- `drive(X, b)` sets one line and appends one event (spec/00_scope.md section 5). -/
def Obligations.DriveSetsOneLine : Prop :=
  ∀ (s : State) (x y : Line) (b : Level),
    (s.drive x b).lines.get y = (if y = x then b else s.lines.get y) ∧
      (s.drive x b).trace = s.trace ++ [{ line := x, level := b }] ∧
        { s.drive x b with lines := s.lines, trace := s.trace } = s

/-- The bit of each shift position: channel 0 first, the most significant bit first. At position 6c + j of
the programming shift it is bit 5 - j of `DC[c]`, at position 12c + j of the brightness shift bit 11 - j of
`GS[c]`, and every position of a shift has one (spec/20_memory.md R38, spec/42_programming_sequencer.md R80,
spec/44_serial_clock_out.md R107: decisions D12 and D17). -/
def Obligations.ShiftsAreMsbFirstChannelZeroFirst : Prop :=
  ∀ s : State, s.ArraysFit →
    (∀ c j, c < s.cfg.nCh → j < 6 →
      6 * c + j < s.cfg.lDC ∧ dcBit s.dc (6 * c + j) = (s.dc[c]?).map fun d => d.getLsbD (5 - j)) ∧
    (∀ c j, c < s.cfg.nCh → j < 12 →
      12 * c + j < s.cfg.lGS ∧ gsBit s.gs (12 * c + j) = (s.gs[c]?).map fun g => g.getLsbD (11 - j)) ∧
    (∀ k, k < s.cfg.lDC → ∃ b, dcBit s.dc k = some b) ∧ (∀ k, k < s.cfg.lGS → ∃ b, gsBit s.gs k = some b)

/-- The micro-steps of the programming sequence's bits, in every phase in range
(spec/42_programming_sequencer.md R81, R82, R83). -/
def Obligations.ProgrammingMicroSteps : Prop :=
  ∀ (s : State) (k : Nat), s.ArraysFit → k < s.cfg.lDC →
    (s.phase = .pData k →
      ∃ b, dcBit s.dc k = some b ∧ microStep s = .next ((s.drive .sin b).goto (.pClkH k))) ∧
    (s.phase = .pClkH k → microStep s = .next ((s.drive .sclk true).goto (.pClkL k))) ∧
    (s.phase = .pClkL k →
      microStep s =
        .next ((s.drive .sclk false).goto (if k + 1 < s.cfg.lDC then .pData (k + 1) else .pXlatH)))

/-- The end of the programming sequence: the latch pulse, then BLANK is cleared
(spec/42_programming_sequencer.md R84, R85, R86). VPRG is 1 after reset; no micro-step of the sequence
drives it: each appends one event, on another line; `R_VPRG` drives it to 0, and the first refresh
invocation, started with VPRG at 1, reaches that as its third micro-step and leaves it at 0. The level after
reset and the place of the fall are decisions D11 and D15 (log 13). -/
def Obligations.ProgrammingEndMicroSteps : Prop :=
  (∀ s : State,
    (s.phase = .pXlatH → microStep s = .next ((s.drive .xlat true).goto .pXlatL)) ∧
    (s.phase = .pXlatL → microStep s = .next ((s.drive .xlat false).goto .pUnblank)) ∧
    (s.phase = .pUnblank → microStep s = .next ((s.drive .blank false).goto .idle))) ∧
  (∀ n, (State.resetFor n).lines.vprg = true) ∧
  (∀ s t : State, s.phase.isP = true → microStep s = .next t →
    t.lines.vprg = s.lines.vprg ∧ ∃ e, t.trace = s.trace ++ [e] ∧ e.line ≠ .vprg) ∧
  (∀ s : State, s.phase = .rVprg → microStep s = .next ((s.drive .vprg false).goto s.afterVprg)) ∧
  (∀ s : State, s.phase = .idle → s.tickPending = true → s.lines.vprg = true →
    ∃ t, runSequencer 3 s = .next t ∧ t.lines.vprg = false ∧
      t.trace = s.trace ++ [{ line := .blank, level := true }, { line := .vprg, level := false }])

/-- The micro-steps of steps (a), (b), the clock's fall of (c), and (d); the latch is taken only when
`PendingLatch` is 1 (spec/43_refresh_cycle_engine.md R94, R96, R97, R98, R100, R101). -/
def Obligations.RefreshMicroSteps : Prop :=
  (∀ s : State,
    (s.phase = .rBlank → microStep s = .next ((s.drive .blank true).goto s.afterBlank)) ∧
    (s.phase = .rXlatH → microStep s = .next ((s.drive .xlat true).goto .rXlatL)) ∧
    (s.phase = .rXlatL → microStep s = .next ((s.drive .xlat false).goto .rClrLatch)) ∧
    (s.phase = .rClrLatch → microStep s = .next { s with pendingLatch := false, phase := s.afterLatch }) ∧
    (s.phase = .rXclkL → microStep s = .next ((s.drive .sclk false).goto .rUnblank)) ∧
    (s.phase = .rUnblank → microStep s = .next ((s.drive .blank false).goto .rTest))) ∧
  (∀ s t : State, microStep s = .next t → t.phase = .rXlatH → t.pendingLatch = true)

/-- The refresh start, the two micro-steps of a first invocation that the spec places by its own decision,
and the successor functions (spec/43_refresh_cycle_engine.md R92, R93, R95, R99: decisions D14, D15, D20).
By R93 the sequencer has no step in `IDLE` with no tick pending; that its micro-step then answers the state
itself is the model's choice (log 6, DESIGN CHOICE). -/
def Obligations.RefreshStartAndSuccessors : Prop :=
  ∀ s : State,
    (s.phase = .idle → s.tickPending = true →
      microStep s =
        .next { s with
          tickPending := false, refreshStarted := true, first := s.lines.vprg, phase := .rBlank }) ∧
    (s.phase = .idle → s.tickPending = false → microStep s = .next s) ∧
    (s.phase = .rVprg → microStep s = .next ((s.drive .vprg false).goto s.afterVprg)) ∧
    (s.phase = .rXclkH → microStep s = .next ((s.drive .sclk true).goto .rXclkL)) ∧
    s.afterBlank = (if s.first then .rVprg else s.afterVprg) ∧
    s.afterVprg = (if s.pendingLatch then .rXlatH else s.afterLatch) ∧
    s.afterLatch = (if s.first then .rXclkH else .rUnblank)

/-- The gate: the test-and-clear of `PendingUpdate` in one step (spec/44_serial_clock_out.md R106,
decision D18). -/
def Obligations.GateTestsAndClears : Prop :=
  ∀ s : State, s.phase = .rTest →
    (s.pendingUpdate = true →
      microStep s =
        .next { s with
          pendingUpdate := false, phase := if s.cfg.nChips.val = 0 then .sDone else .sData 0 }) ∧
    (s.pendingUpdate = false →
      microStep s = .next { s with pendingLatch := false, first := false, phase := .idle })

/-- The micro-steps of the shift, in every phase in range, and its end, which drives no line
(spec/44_serial_clock_out.md R108, R109, R110, R111). -/
def Obligations.ClockOutMicroSteps : Prop :=
  ∀ (s : State) (k : Nat), s.ArraysFit →
    (k < s.cfg.lGS → s.phase = .sData k →
      ∃ b, gsBit s.gs k = some b ∧ microStep s = .next ((s.drive .sin b).goto (.sClkH k))) ∧
    (k < s.cfg.lGS → s.phase = .sClkH k → microStep s = .next ((s.drive .sclk true).goto (.sClkL k))) ∧
    (k < s.cfg.lGS → s.phase = .sClkL k →
      microStep s =
        .next ((s.drive .sclk false).goto (if k + 1 < s.cfg.lGS then .sData (k + 1) else .sDone))) ∧
    (s.phase = .sDone →
      microStep s = .next { s with pendingLatch := true, first := false, phase := .idle })

/-- What no micro-step changes: the arrays, the markers, `prog_issued`, the parameter, the inputs; and a
micro-step makes at most one drive (spec/00_scope.md R12, decision D16; spec/10_state.md section 1). -/
def Obligations.MicroStepFrame : Prop :=
  ∀ s t : State, microStep s = .next t →
    (t.dc = s.dc ∧ t.gs = s.gs ∧ t.markers = s.markers ∧ t.progIssued = s.progIssued ∧ t.cfg = s.cfg ∧
      t.hostPort = s.hostPort ∧ t.tickPort = s.tickPort ∧ t.turns = s.turns ∧ t.choices = s.choices) ∧
    ((t.lines = s.lines ∧ t.trace = s.trace) ∨
      ∃ x b, t.lines = s.lines.set x b ∧ t.trace = s.trace ++ [{ line := x, level := b }]) ∧
    (s.phase ≠ .idle → t.tickPending = s.tickPending ∧ t.refreshStarted = s.refreshStarted) ∧
    (s.phase ≠ .rTest → t.pendingUpdate = s.pendingUpdate)

/-- A SETGS accepted between two bits of its own channel is seen by the next bit: the bit driven after it is
the new value's (spec/20_memory.md R43, spec/44_serial_clock_out.md R114: decision D17). -/
def Obligations.SetgsIsSeenByTheNextBit : Prop :=
  ∀ (s : State) (k v : Nat), s.ArraysFit → k < s.cfg.lGS → s.phase = .sData k →
    ∃ t u, exec (.setgs (k / 12) v) s = .next t ∧ t.markers.has .m9 = true ∧ microStep t = .next u ∧
      u.lines.sin = (BitVec.ofNat 12 (min v 4095)).getLsbD (11 - k % 12)

/-! ### Whole-machine rules -/

/-- From every state that meets the invariant, a step gives a state that meets it. The invariant's clauses
follow spec/10_state.md R15, R17, R21, R23, R28 and spec/43_refresh_cycle_engine.md R102, R103; they rest on
the spec's decisions D10, D11, D15, D16, D21 and D24 (log 13). -/
def Obligations.StepKeepsInvariant : Prop :=
  ∀ s t : State, s.Inv → step s = .next t → t.Inv

/-- From every state that meets the invariant a step answers a next state: there is no fault, no refusal and
no stuck state (spec/60_exceptions.md R125; the quiescent step is log 6, the fault
that the invariant rules out log 9). -/
def Obligations.EveryStepHasANextState : Prop :=
  ∀ s : State, s.Inv → ∃ t, step s = .next t

/-- No step drives program-select to 1: a step that is not a reset appends events of which none is
`(VPRG, 1)`, and VPRG goes from 0 to 1 only by reset, which is no drive and leaves an empty trace
(spec/70_reset_and_hazards.md R147). Only `R_VPRG` drives it, to 0 (spec/10_state.md R28, decision D11;
spec/43_refresh_cycle_engine.md R95, decision D15). -/
def Obligations.ProgramSelectRisesOnlyAtReset : Prop :=
  ∀ s t : State, step s = .next t →
    (¬ s.resetNext → ∃ es, t.trace = s.trace ++ es ∧
      ∀ e ∈ es, e.line = .vprg → e.level = false ∧ s.phase = .rVprg) ∧
    (s.resetNext → t.trace = [] ∧ t.lines.vprg = true) ∧
    (s.lines.vprg = false → t.lines.vprg = true → s.resetNext) ∧
    (s.lines.vprg = true → t.lines.vprg = false → s.phase = .rVprg)

/-- A COMMIT is never lost: `PendingUpdate` stays 1 until an `R_TEST` micro-step that starts a shift, or
reset (spec/20_memory.md R52; the one-step test and clear is decision D18). -/
def Obligations.CommitIsNeverLost : Prop :=
  ∀ s t : State, step s = .next t → s.pendingUpdate = true → t.pendingUpdate = false →
    s.resetNext ∨ (s.phase = .rTest ∧ t.phase = if s.cfg.nChips.val = 0 then .sDone else .sData 0)

/-- No step but reset removes a marker or clears `prog_issued` or `refresh_started`
(spec/10_state.md R32, R33, decision D22). -/
def Obligations.RecordsAreNeverRemoved : Prop :=
  ∀ s t : State, step s = .next t → ¬ s.resetNext →
    (∀ m, s.markers.has m = true → t.markers.has m = true) ∧
      (s.progIssued = true → t.progIssued = true) ∧ (s.refreshStarted = true → t.refreshStarted = true) ∧
        s.trace <+: t.trace

/-- An element of an array changes only by reset or by an accepted setter that names its channel, and then
holds the clamped operand (spec/10_state.md R15, R17, R37). -/
def Obligations.ArraysChangeOnlyBySetters : Prop :=
  ∀ (s t : State) (c : Nat), step s = .next t → ¬ s.resetNext →
    (t.dc[c]? ≠ s.dc[c]? →
      c < s.cfg.nCh ∧ ∃ p w v, s.takes p w ∧ decode w = .setdc c v ∧
        t.dc[c]? = some (BitVec.ofNat 6 (min v 63))) ∧
    (t.gs[c]? ≠ s.gs[c]? →
      c < s.cfg.nCh ∧ ∃ p w v, s.takes p w ∧ decode w = .setgs c v ∧
        t.gs[c]? = some (BitVec.ofNat 12 (min v 4095)))

/-- While the sequencer is busy with programming, only a TICK is accepted, and it only sets `tick_pending` and
adds M2 (with M1 and M7 by their own rules). A step that is not a reset changes no array and no flag but
`tick_pending`; that flag and the markers change only by a TICK taken from a port, which leaves the sequence
where it was; and the sequence goes on or ends in `IDLE` (spec/42_programming_sequencer.md R87,
spec/43_refresh_cycle_engine.md R91: decisions D19, D21, D22). -/
def Obligations.ProgrammingIsNotPreempted : Prop :=
  ∀ s : State, s.phase.isP = true →
    (∀ i, accepts i s = true → i = .tick) ∧
    (∃ u, exec .tick s = .next u ∧ u.tickPending = true ∧
      (∀ m, u.markers.has m =
        (s.markers.has m || decide (m = .m2) || (decide (m = .m1) && !s.progIssued) ||
          (decide (m = .m7) && s.tickPending))) ∧
      { u with tickPending := s.tickPending, markers := s.markers } = s) ∧
    (∀ t, step s = .next t → ¬ s.resetNext →
      t.dc = s.dc ∧ t.gs = s.gs ∧ t.pendingUpdate = s.pendingUpdate ∧ t.pendingLatch = s.pendingLatch ∧
      t.first = s.first ∧ t.progIssued = s.progIssued ∧ t.refreshStarted = s.refreshStarted ∧
      (t.phase.isP = true ∨ (s.phase = .pUnblank ∧ t.phase = .idle)) ∧
      ((t.tickPending = s.tickPending ∧ t.markers = s.markers) ∨
        ∃ p w, s.takes p w ∧ decode w = .tick ∧ t.tickPending = true ∧ t.markers.has .m2 = true ∧
          t.phase = s.phase ∧ t.lines = s.lines ∧ t.trace = s.trace))

/-- Invocations never overlap or nest (spec/43_refresh_cycle_engine.md R105, spec/60_exceptions.md R136,
R138, R139: decision D19). A step that comes to `R_BLANK` from any other phase, an R or S phase among them,
or to an R or S phase from a phase that is none, is the refresh start: from `IDLE`, with a tick pending, to
`R_BLANK`. The pending tick is used up by that step or by reset alone, so an invocation is not begun again in
its own `R_BLANK`. An invocation is left only by reset, at `R_TEST` with no update pending, or at `S_DONE`,
and then to `IDLE` with `first` cleared. -/
def Obligations.RefreshStartsOnlyFromIdle : Prop :=
  ∀ s t : State, step s = .next t →
    ((t.phase = .rBlank ∧ s.phase ≠ .rBlank) ∨ (t.phase.isRefresh = true ∧ s.phase.isRefresh = false) →
      s.phase = .idle ∧ s.tickPending = true ∧ t.phase = .rBlank ∧ t.tickPending = false ∧
        t.first = s.lines.vprg ∧ t.lines = s.lines) ∧
    (s.tickPending = true → t.tickPending = false →
      s.resetNext ∨ (s.phase = .idle ∧ t.phase = .rBlank)) ∧
    (s.phase.isRefresh = true → t.phase.isRefresh = false →
      s.resetNext ∨ (((s.phase = .rTest ∧ s.pendingUpdate = false) ∨ s.phase = .sDone) ∧
        t.phase = .idle ∧ t.first = false))

/-- The ghost state G1 to G4 steers no hardware: two states that agree on everything else step to states
that agree on everything else (spec/10_state.md R31, decision D22). -/
def Obligations.GhostStateSteersNothing : Prop :=
  ∀ a b t : State, a.withoutGhost = b.withoutGhost → step a = .next t →
    ∃ u, step b = .next u ∧ u.withoutGhost = t.withoutGhost

/-- Blanking brackets every latch, as an invariant: with `State.Inv`, that every `(XLAT, 1)` event of the
trace happens while BLANK is 1, unless M3 or M4 is marked, is kept by every step
(spec/43_refresh_cycle_engine.md R103; with decisions D15 and D21 as the spec). At reset both hold:
ResetMeetsInvariant. -/
def Obligations.LatchOnlyWhileBlanked : Prop :=
  ∀ s t : State, s.Inv → s.LatchesBracketed → step s = .next t → t.Inv ∧ t.LatchesBracketed

/-- Every SCLK and XLAT event is an edge, as an invariant: with `State.Inv`, that every such event of the trace
changes the level of its line is kept by every step (spec/48_receiver_observer.md R116, decision D13). At
reset both hold: ResetMeetsInvariant. -/
def Obligations.ClockAndLatchEventsAreEdges : Prop :=
  ∀ s t : State, s.Inv → s.EventsAreEdges → step s = .next t → t.Inv ∧ t.EventsAreEdges

/-! ### Whole sequences -/

/-- The programming sequence: after an accepted PROGRAM, 3 * L_DC + 3 micro-steps append exactly the events
of the correction array, MSB first and channel 0 first, one latch pulse and the unblanking, and end in
`IDLE` with SCLK, XLAT and BLANK at 0 (spec/42_programming_sequencer.md R87, R88, R90). The channel
order, SIN kept at its last bit and the read of one bit in each data micro-step are decisions D12, D14 and
D17. -/
def Obligations.ProgramShiftsTheCorrectionArray : Prop :=
  ∀ s : State, s.ArraysFit → s.phase = .idle → s.lines.sclk = false →
    ∃ s₀ t, exec .program s = .next s₀ ∧ runSequencer (3 * s.cfg.lDC + 3) s₀ = .next t ∧
      t.phase = .idle ∧ t.trace = s.trace ++ programEvents s.cfg s.dc ∧
      t.lines = { sclk := false, sin := (dcBits s.cfg s.dc).getLastD s.lines.sin, xlat := false,
                  blank := false, vprg := s.lines.vprg } ∧
      { t with trace := s₀.trace, lines := s₀.lines, phase := s₀.phase } = s₀

/-- The bits captured from a programming sequence are the correction array
(spec/42_programming_sequencer.md R88, spec/48_receiver_observer.md R117: decisions D12, D13). -/
def Obligations.CaptureOfProgramIsTheCorrectionArray : Prop :=
  ∀ (s : State), s.ArraysFit → s.lines.sclk = false → s.TraceMatchesLines →
    capture (s.trace ++ programEvents s.cfg s.dc) = capture s.trace ++ dcBits s.cfg s.dc

/-- The four shapes of an invocation before its clock-out (spec/43_refresh_cycle_engine.md R102): the events
by the level of VPRG and by `PendingLatch` at its start, and the state at `R_TEST`, where each line is at the
level those events leave it: VPRG and BLANK at 0, SIN as it was (R99, decision D14), SCLK and XLAT low when
they were. The place of the VPRG fall is decision D15. -/
def Obligations.InvocationShapes : Prop :=
  ∀ s : State, s.phase = .idle → s.tickPending = true →
    ∃ t, runSequencer (invocationSteps s.lines.vprg s.pendingLatch) s = .next t ∧ t.phase = .rTest ∧
      t.trace = s.trace ++ invocationEvents s.lines.vprg s.pendingLatch ∧ t.pendingLatch = false ∧
      t.first = s.lines.vprg ∧ t.tickPending = false ∧ t.refreshStarted = true ∧
      t.lines = levelsAfter s.lines (invocationEvents s.lines.vprg s.pendingLatch) ∧
      t.lines.vprg = false ∧ t.lines.blank = false ∧ t.lines.sin = s.lines.sin ∧
      (s.lines.sclk = false → t.lines.sclk = false) ∧ (s.lines.xlat = false → t.lines.xlat = false) ∧
      { t with phase := s.phase, trace := s.trace, pendingLatch := s.pendingLatch, first := s.first,
               tickPending := s.tickPending, refreshStarted := s.refreshStarted, lines := s.lines } = s

/-- A clock-out that shifts: with no other agent's step in it, 3 * L_GS + 2 micro-steps from `R_TEST` append
exactly the events of the brightness array, clear `PendingUpdate`, set `PendingLatch` and end in `IDLE`
(spec/44_serial_clock_out.md R112: decisions D12, D17, D18). -/
def Obligations.ClockOutShiftsTheBrightnessArray : Prop :=
  ∀ s : State, s.ArraysFit → s.phase = .rTest → s.pendingUpdate = true →
    ∃ t, runSequencer (3 * s.cfg.lGS + 2) s = .next t ∧ t.phase = .idle ∧
      t.trace = s.trace ++ shiftEvents s.cfg s.gs ∧ t.pendingUpdate = false ∧ t.pendingLatch = true ∧
      t.first = false ∧ t.lines = levelsAfter s.lines (shiftEvents s.cfg s.gs) ∧
      { t with phase := s.phase, trace := s.trace, pendingUpdate := s.pendingUpdate,
               pendingLatch := s.pendingLatch, first := s.first, lines := s.lines } = s

/-- With no chip the sequences have no bits: PROGRAM is the latch and the unblanking alone, and a clock-out
with an update pending goes straight to its end and asks for a latch
(spec/42_programming_sequencer.md R89, spec/44_serial_clock_out.md R115). -/
def Obligations.ZeroChipsShiftNothing : Prop :=
  ∀ s : State, s.cfg.nChips.val = 0 →
    (s.phase = .idle →
      ∃ s₀ t, exec .program s = .next s₀ ∧ runSequencer 3 s₀ = .next t ∧ t.phase = .idle ∧
        t.trace = s.trace ++
          [{ line := .xlat, level := true }, { line := .xlat, level := false },
           { line := .blank, level := false }]) ∧
    (s.phase = .rTest → s.pendingUpdate = true →
      ∃ t, runSequencer 2 s = .next t ∧ t.phase = .idle ∧ t.pendingLatch = true ∧
        t.pendingUpdate = false ∧ t.trace = s.trace)

/-- Every started sequence ends: from every state that meets the invariant, the sequencer alone reaches `IDLE`
from a P phase in at most 3 * L_DC + 3 micro-steps, from an R or S phase in at most 3 * L_GS + 7, and from a
refresh start, that step counted, in at most 3 * L_GS + 8: the counts of the longest programming and the
longest invocation (spec/42_programming_sequencer.md R87, spec/70_reset_and_hazards.md R158; that the
sequencer moves is the fairness of decision D27). -/
def Obligations.EveryStartedSequenceEnds : Prop :=
  ∀ s : State, s.Inv →
    (s.phase.isP = true →
      ∃ n t, n ≤ 3 * s.cfg.lDC + 3 ∧ runSequencer n s = .next t ∧ t.phase = .idle) ∧
    (s.phase.isRefresh = true →
      ∃ n t, n ≤ 3 * s.cfg.lGS + 7 ∧ runSequencer n s = .next t ∧ t.phase = .idle) ∧
    (s.phase = .idle → s.tickPending = true →
      ∃ n t, 0 < n ∧ n ≤ 3 * s.cfg.lGS + 8 ∧ runSequencer n s = .next t ∧ t.phase = .idle ∧
        t.tickPending = false)

/-! ### The reference receiver -/

/-- After a PROGRAM accepted from the reset state, with any correction and brightness values set before it,
the receiver's correction register equals the correction array (spec/48_receiver_observer.md R122; the
receiver is decision D25, with no chip as in log 14). -/
def Obligations.ReceiverHoldsTheCorrectionArray : Prop :=
  ∀ s : State, s.ArraysFit → s.phase = .idle → s.lines = Lines.reset → s.trace = [] →
    ∃ s₀ t, exec .program s = .next s₀ ∧ runSequencer (3 * s.cfg.lDC + 3) s₀ = .next t ∧
      (receive t.cfg t.trace).dcr = s.dc.map some

/-- The one-cycle pipeline, end to end: an update pending at the start of an invocation is shifted in it and
latched in the next, and then the receiver's brightness register equals the brightness array, when no
setter falls between (spec/43_refresh_cycle_engine.md R104, spec/48_receiver_observer.md R121; the receiver
is decision D25, with no chip as in log 14). -/
def Obligations.ReceiverHoldsTheBrightnessArray : Prop :=
  ∀ s : State, s.Inv → s.phase = .idle → s.tickPending = true → s.pendingUpdate = true →
    ∃ t t' u,
      runSequencer (invocationSteps s.lines.vprg s.pendingLatch + (3 * s.cfg.lGS + 2)) s = .next t ∧
      t.phase = .idle ∧ t.pendingLatch = true ∧ exec .tick t = .next t' ∧
      runSequencer (invocationSteps false true) t' = .next u ∧
      (receive u.cfg u.trace).gsr = s.gs.map some

/-- BLANK forces every output off, whatever the registers hold; with BLANK at 0 the output is driven by the
receiver's registers (spec/48_receiver_observer.md R123, decision D25). -/
def Obligations.BlankForcesOutputsOff : Prop :=
  ∀ (s : State) (c : Nat), s.TraceMatchesLines →
    (s.lines.blank = true → visible s.cfg s.trace c = .off) ∧
      (s.lines.blank = false → ∃ g d, visible s.cfg s.trace c = .driven g d ∧
        g = (receive s.cfg s.trace).gsr.getD c none ∧ d = (receive s.cfg s.trace).dcr.getD c none)

/-! ### Test programs -/

/-- The pseudo-instruction `frame` with exactly one value for each channel is a `setgs` for each channel in
order and then a `commit`, on the host port; a value outside its field or another number of values is
refused (spec/30_encoding.md R65, R67, decision D30). -/
def Obligations.FrameWritesEveryChannelThenCommits : Prop :=
  ∀ (g : Config) (vs : List Nat),
    (vs.length = g.nCh → (∀ v ∈ vs, v < 65536) →
      assembleLine g (.frame vs) =
        some ((vs.zipIdx.map fun p => TestItem.word .host (encode (.setgs p.2 p.1))) ++
          [.word .host 0x30000000])) ∧
    (vs.length ≠ g.nCh ∨ (∃ v ∈ vs, 65536 ≤ v) → assembleLine g (.frame vs) = none)

/-! ### Runs from reset -/

/-- Blanking brackets every latch in every run from reset, whatever the outside sends, that has neither M3
nor M4 (spec/43_refresh_cycle_engine.md R103; the ports and the turns are logs 3 and 4). -/
def Obligations.RunsLatchOnlyWhileBlanked : Prop :=
  ∀ (n : Fin 257) (host tick : List Word) (turns : List Turn) (choices k : Nat) (t : State),
    Host.Core.run Sys2Proof.core k (State.resetWith n host tick turns choices) = .next t →
      t.markers.has .m3 = false → t.markers.has .m4 = false → latchesBlanked Lines.reset t.trace = true

/-- Every SCLK and XLAT event is an edge, in every run from reset, whatever the outside sends
(spec/48_receiver_observer.md R116, decision D13; the ports and the turns are logs 3 and 4). -/
def Obligations.RunsHaveOnlyEdges : Prop :=
  ∀ (n : Fin 257) (host tick : List Word) (turns : List Turn) (choices k : Nat) (t : State),
    Host.Core.run Sys2Proof.core k (State.resetWith n host tick turns choices) = .next t →
      edgesOnly Lines.reset t.trace = true
end

