-- ==== Sys2Proof/Laws/State.lean ====
section
/-! SUPPORT. What each named update of the state does to each field, true by unfolding, for simp. -/

namespace Sys2Proof.Machine

/-! ### drive -/

@[simp] theorem State.drive_cfg (s : State) (x : Line) (b : Level) : (s.drive x b).cfg = s.cfg := rfl
@[simp] theorem State.drive_dc (s : State) (x : Line) (b : Level) : (s.drive x b).dc = s.dc := rfl
@[simp] theorem State.drive_gs (s : State) (x : Line) (b : Level) : (s.drive x b).gs = s.gs := rfl
@[simp] theorem State.drive_pendingUpdate (s : State) (x : Line) (b : Level) : (s.drive x b).pendingUpdate = s.pendingUpdate := rfl
@[simp] theorem State.drive_pendingLatch (s : State) (x : Line) (b : Level) : (s.drive x b).pendingLatch = s.pendingLatch := rfl
@[simp] theorem State.drive_first (s : State) (x : Line) (b : Level) : (s.drive x b).first = s.first := rfl
@[simp] theorem State.drive_tickPending (s : State) (x : Line) (b : Level) : (s.drive x b).tickPending = s.tickPending := rfl
@[simp] theorem State.drive_phase (s : State) (x : Line) (b : Level) : (s.drive x b).phase = s.phase := rfl
@[simp] theorem State.drive_lines (s : State) (x : Line) (b : Level) : (s.drive x b).lines = s.lines.set x b := rfl
@[simp] theorem State.drive_markers (s : State) (x : Line) (b : Level) : (s.drive x b).markers = s.markers := rfl
@[simp] theorem State.drive_progIssued (s : State) (x : Line) (b : Level) : (s.drive x b).progIssued = s.progIssued := rfl
@[simp] theorem State.drive_refreshStarted (s : State) (x : Line) (b : Level) : (s.drive x b).refreshStarted = s.refreshStarted := rfl
@[simp] theorem State.drive_trace (s : State) (x : Line) (b : Level) : (s.drive x b).trace = s.trace ++ [{ line := x, level := b }] := rfl
@[simp] theorem State.drive_hostPort (s : State) (x : Line) (b : Level) : (s.drive x b).hostPort = s.hostPort := rfl
@[simp] theorem State.drive_tickPort (s : State) (x : Line) (b : Level) : (s.drive x b).tickPort = s.tickPort := rfl
@[simp] theorem State.drive_turns (s : State) (x : Line) (b : Level) : (s.drive x b).turns = s.turns := rfl
@[simp] theorem State.drive_choices (s : State) (x : Line) (b : Level) : (s.drive x b).choices = s.choices := rfl

/-! ### goto -/

@[simp] theorem State.goto_cfg (s : State) (p : Phase) : (s.goto p).cfg = s.cfg := rfl
@[simp] theorem State.goto_dc (s : State) (p : Phase) : (s.goto p).dc = s.dc := rfl
@[simp] theorem State.goto_gs (s : State) (p : Phase) : (s.goto p).gs = s.gs := rfl
@[simp] theorem State.goto_pendingUpdate (s : State) (p : Phase) : (s.goto p).pendingUpdate = s.pendingUpdate := rfl
@[simp] theorem State.goto_pendingLatch (s : State) (p : Phase) : (s.goto p).pendingLatch = s.pendingLatch := rfl
@[simp] theorem State.goto_first (s : State) (p : Phase) : (s.goto p).first = s.first := rfl
@[simp] theorem State.goto_tickPending (s : State) (p : Phase) : (s.goto p).tickPending = s.tickPending := rfl
@[simp] theorem State.goto_phase (s : State) (p : Phase) : (s.goto p).phase = p := rfl
@[simp] theorem State.goto_lines (s : State) (p : Phase) : (s.goto p).lines = s.lines := rfl
@[simp] theorem State.goto_markers (s : State) (p : Phase) : (s.goto p).markers = s.markers := rfl
@[simp] theorem State.goto_progIssued (s : State) (p : Phase) : (s.goto p).progIssued = s.progIssued := rfl
@[simp] theorem State.goto_refreshStarted (s : State) (p : Phase) : (s.goto p).refreshStarted = s.refreshStarted := rfl
@[simp] theorem State.goto_trace (s : State) (p : Phase) : (s.goto p).trace = s.trace := rfl
@[simp] theorem State.goto_hostPort (s : State) (p : Phase) : (s.goto p).hostPort = s.hostPort := rfl
@[simp] theorem State.goto_tickPort (s : State) (p : Phase) : (s.goto p).tickPort = s.tickPort := rfl
@[simp] theorem State.goto_turns (s : State) (p : Phase) : (s.goto p).turns = s.turns := rfl
@[simp] theorem State.goto_choices (s : State) (p : Phase) : (s.goto p).choices = s.choices := rfl

/-! ### markIf -/

@[simp] theorem State.markIf_cfg (s : State) (b : Bool) (m : Marker) : (s.markIf b m).cfg = s.cfg := rfl
@[simp] theorem State.markIf_dc (s : State) (b : Bool) (m : Marker) : (s.markIf b m).dc = s.dc := rfl
@[simp] theorem State.markIf_gs (s : State) (b : Bool) (m : Marker) : (s.markIf b m).gs = s.gs := rfl
@[simp] theorem State.markIf_pendingUpdate (s : State) (b : Bool) (m : Marker) : (s.markIf b m).pendingUpdate = s.pendingUpdate := rfl
@[simp] theorem State.markIf_pendingLatch (s : State) (b : Bool) (m : Marker) : (s.markIf b m).pendingLatch = s.pendingLatch := rfl
@[simp] theorem State.markIf_first (s : State) (b : Bool) (m : Marker) : (s.markIf b m).first = s.first := rfl
@[simp] theorem State.markIf_tickPending (s : State) (b : Bool) (m : Marker) : (s.markIf b m).tickPending = s.tickPending := rfl
@[simp] theorem State.markIf_phase (s : State) (b : Bool) (m : Marker) : (s.markIf b m).phase = s.phase := rfl
@[simp] theorem State.markIf_lines (s : State) (b : Bool) (m : Marker) : (s.markIf b m).lines = s.lines := rfl
@[simp] theorem State.markIf_markers (s : State) (b : Bool) (m : Marker) : (s.markIf b m).markers = s.markers.addIf b m := rfl
@[simp] theorem State.markIf_progIssued (s : State) (b : Bool) (m : Marker) : (s.markIf b m).progIssued = s.progIssued := rfl
@[simp] theorem State.markIf_refreshStarted (s : State) (b : Bool) (m : Marker) : (s.markIf b m).refreshStarted = s.refreshStarted := rfl
@[simp] theorem State.markIf_trace (s : State) (b : Bool) (m : Marker) : (s.markIf b m).trace = s.trace := rfl
@[simp] theorem State.markIf_hostPort (s : State) (b : Bool) (m : Marker) : (s.markIf b m).hostPort = s.hostPort := rfl
@[simp] theorem State.markIf_tickPort (s : State) (b : Bool) (m : Marker) : (s.markIf b m).tickPort = s.tickPort := rfl
@[simp] theorem State.markIf_turns (s : State) (b : Bool) (m : Marker) : (s.markIf b m).turns = s.turns := rfl
@[simp] theorem State.markIf_choices (s : State) (b : Bool) (m : Marker) : (s.markIf b m).choices = s.choices := rfl

/-! ### writeDc -/

@[simp] theorem State.writeDc_cfg (s : State) (c : Nat) (v : Dot) : (s.writeDc c v).cfg = s.cfg := rfl
@[simp] theorem State.writeDc_dc (s : State) (c : Nat) (v : Dot) : (s.writeDc c v).dc = if c < s.cfg.nCh then s.dc.set c v else s.dc := rfl
@[simp] theorem State.writeDc_gs (s : State) (c : Nat) (v : Dot) : (s.writeDc c v).gs = s.gs := rfl
@[simp] theorem State.writeDc_pendingUpdate (s : State) (c : Nat) (v : Dot) : (s.writeDc c v).pendingUpdate = s.pendingUpdate := rfl
@[simp] theorem State.writeDc_pendingLatch (s : State) (c : Nat) (v : Dot) : (s.writeDc c v).pendingLatch = s.pendingLatch := rfl
@[simp] theorem State.writeDc_first (s : State) (c : Nat) (v : Dot) : (s.writeDc c v).first = s.first := rfl
@[simp] theorem State.writeDc_tickPending (s : State) (c : Nat) (v : Dot) : (s.writeDc c v).tickPending = s.tickPending := rfl
@[simp] theorem State.writeDc_phase (s : State) (c : Nat) (v : Dot) : (s.writeDc c v).phase = s.phase := rfl
@[simp] theorem State.writeDc_lines (s : State) (c : Nat) (v : Dot) : (s.writeDc c v).lines = s.lines := rfl
@[simp] theorem State.writeDc_markers (s : State) (c : Nat) (v : Dot) : (s.writeDc c v).markers = s.markers := rfl
@[simp] theorem State.writeDc_progIssued (s : State) (c : Nat) (v : Dot) : (s.writeDc c v).progIssued = s.progIssued := rfl
@[simp] theorem State.writeDc_refreshStarted (s : State) (c : Nat) (v : Dot) : (s.writeDc c v).refreshStarted = s.refreshStarted := rfl
@[simp] theorem State.writeDc_trace (s : State) (c : Nat) (v : Dot) : (s.writeDc c v).trace = s.trace := rfl
@[simp] theorem State.writeDc_hostPort (s : State) (c : Nat) (v : Dot) : (s.writeDc c v).hostPort = s.hostPort := rfl
@[simp] theorem State.writeDc_tickPort (s : State) (c : Nat) (v : Dot) : (s.writeDc c v).tickPort = s.tickPort := rfl
@[simp] theorem State.writeDc_turns (s : State) (c : Nat) (v : Dot) : (s.writeDc c v).turns = s.turns := rfl
@[simp] theorem State.writeDc_choices (s : State) (c : Nat) (v : Dot) : (s.writeDc c v).choices = s.choices := rfl

/-! ### writeGs -/

@[simp] theorem State.writeGs_cfg (s : State) (c : Nat) (v : Grey) : (s.writeGs c v).cfg = s.cfg := rfl
@[simp] theorem State.writeGs_dc (s : State) (c : Nat) (v : Grey) : (s.writeGs c v).dc = s.dc := rfl
@[simp] theorem State.writeGs_gs (s : State) (c : Nat) (v : Grey) : (s.writeGs c v).gs = if c < s.cfg.nCh then s.gs.set c v else s.gs := rfl
@[simp] theorem State.writeGs_pendingUpdate (s : State) (c : Nat) (v : Grey) : (s.writeGs c v).pendingUpdate = s.pendingUpdate := rfl
@[simp] theorem State.writeGs_pendingLatch (s : State) (c : Nat) (v : Grey) : (s.writeGs c v).pendingLatch = s.pendingLatch := rfl
@[simp] theorem State.writeGs_first (s : State) (c : Nat) (v : Grey) : (s.writeGs c v).first = s.first := rfl
@[simp] theorem State.writeGs_tickPending (s : State) (c : Nat) (v : Grey) : (s.writeGs c v).tickPending = s.tickPending := rfl
@[simp] theorem State.writeGs_phase (s : State) (c : Nat) (v : Grey) : (s.writeGs c v).phase = s.phase := rfl
@[simp] theorem State.writeGs_lines (s : State) (c : Nat) (v : Grey) : (s.writeGs c v).lines = s.lines := rfl
@[simp] theorem State.writeGs_markers (s : State) (c : Nat) (v : Grey) : (s.writeGs c v).markers = s.markers := rfl
@[simp] theorem State.writeGs_progIssued (s : State) (c : Nat) (v : Grey) : (s.writeGs c v).progIssued = s.progIssued := rfl
@[simp] theorem State.writeGs_refreshStarted (s : State) (c : Nat) (v : Grey) : (s.writeGs c v).refreshStarted = s.refreshStarted := rfl
@[simp] theorem State.writeGs_trace (s : State) (c : Nat) (v : Grey) : (s.writeGs c v).trace = s.trace := rfl
@[simp] theorem State.writeGs_hostPort (s : State) (c : Nat) (v : Grey) : (s.writeGs c v).hostPort = s.hostPort := rfl
@[simp] theorem State.writeGs_tickPort (s : State) (c : Nat) (v : Grey) : (s.writeGs c v).tickPort = s.tickPort := rfl
@[simp] theorem State.writeGs_turns (s : State) (c : Nat) (v : Grey) : (s.writeGs c v).turns = s.turns := rfl
@[simp] theorem State.writeGs_choices (s : State) (c : Nat) (v : Grey) : (s.writeGs c v).choices = s.choices := rfl

/-! ### refreshStart -/

@[simp] theorem refreshStart_cfg (s : State) : (refreshStart s).cfg = s.cfg := rfl
@[simp] theorem refreshStart_dc (s : State) : (refreshStart s).dc = s.dc := rfl
@[simp] theorem refreshStart_gs (s : State) : (refreshStart s).gs = s.gs := rfl
@[simp] theorem refreshStart_pendingUpdate (s : State) : (refreshStart s).pendingUpdate = s.pendingUpdate := rfl
@[simp] theorem refreshStart_pendingLatch (s : State) : (refreshStart s).pendingLatch = s.pendingLatch := rfl
@[simp] theorem refreshStart_first (s : State) : (refreshStart s).first = s.lines.vprg := rfl
@[simp] theorem refreshStart_tickPending (s : State) : (refreshStart s).tickPending = false := rfl
@[simp] theorem refreshStart_phase (s : State) : (refreshStart s).phase = .rBlank := rfl
@[simp] theorem refreshStart_lines (s : State) : (refreshStart s).lines = s.lines := rfl
@[simp] theorem refreshStart_markers (s : State) : (refreshStart s).markers = s.markers := rfl
@[simp] theorem refreshStart_progIssued (s : State) : (refreshStart s).progIssued = s.progIssued := rfl
@[simp] theorem refreshStart_refreshStarted (s : State) : (refreshStart s).refreshStarted = true := rfl
@[simp] theorem refreshStart_trace (s : State) : (refreshStart s).trace = s.trace := rfl
@[simp] theorem refreshStart_hostPort (s : State) : (refreshStart s).hostPort = s.hostPort := rfl
@[simp] theorem refreshStart_tickPort (s : State) : (refreshStart s).tickPort = s.tickPort := rfl
@[simp] theorem refreshStart_turns (s : State) : (refreshStart s).turns = s.turns := rfl
@[simp] theorem refreshStart_choices (s : State) : (refreshStart s).choices = s.choices := rfl

/-! ### endInvocation -/

@[simp] theorem endInvocation_cfg (s : State) (l : Bool) : (endInvocation s l).cfg = s.cfg := rfl
@[simp] theorem endInvocation_dc (s : State) (l : Bool) : (endInvocation s l).dc = s.dc := rfl
@[simp] theorem endInvocation_gs (s : State) (l : Bool) : (endInvocation s l).gs = s.gs := rfl
@[simp] theorem endInvocation_pendingUpdate (s : State) (l : Bool) : (endInvocation s l).pendingUpdate = s.pendingUpdate := rfl
@[simp] theorem endInvocation_pendingLatch (s : State) (l : Bool) : (endInvocation s l).pendingLatch = l := rfl
@[simp] theorem endInvocation_first (s : State) (l : Bool) : (endInvocation s l).first = false := rfl
@[simp] theorem endInvocation_tickPending (s : State) (l : Bool) : (endInvocation s l).tickPending = s.tickPending := rfl
@[simp] theorem endInvocation_phase (s : State) (l : Bool) : (endInvocation s l).phase = .idle := rfl
@[simp] theorem endInvocation_lines (s : State) (l : Bool) : (endInvocation s l).lines = s.lines := rfl
@[simp] theorem endInvocation_markers (s : State) (l : Bool) : (endInvocation s l).markers = s.markers := rfl
@[simp] theorem endInvocation_progIssued (s : State) (l : Bool) : (endInvocation s l).progIssued = s.progIssued := rfl
@[simp] theorem endInvocation_refreshStarted (s : State) (l : Bool) : (endInvocation s l).refreshStarted = s.refreshStarted := rfl
@[simp] theorem endInvocation_trace (s : State) (l : Bool) : (endInvocation s l).trace = s.trace := rfl
@[simp] theorem endInvocation_hostPort (s : State) (l : Bool) : (endInvocation s l).hostPort = s.hostPort := rfl
@[simp] theorem endInvocation_tickPort (s : State) (l : Bool) : (endInvocation s l).tickPort = s.tickPort := rfl
@[simp] theorem endInvocation_turns (s : State) (l : Bool) : (endInvocation s l).turns = s.turns := rfl
@[simp] theorem endInvocation_choices (s : State) (l : Bool) : (endInvocation s l).choices = s.choices := rfl

/-! ### markSetdc -/

@[simp] theorem State.markSetdc_cfg (s : State) : (s.markSetdc).cfg = s.cfg := rfl
@[simp] theorem State.markSetdc_dc (s : State) : (s.markSetdc).dc = s.dc := rfl
@[simp] theorem State.markSetdc_gs (s : State) : (s.markSetdc).gs = s.gs := rfl
@[simp] theorem State.markSetdc_pendingUpdate (s : State) : (s.markSetdc).pendingUpdate = s.pendingUpdate := rfl
@[simp] theorem State.markSetdc_pendingLatch (s : State) : (s.markSetdc).pendingLatch = s.pendingLatch := rfl
@[simp] theorem State.markSetdc_first (s : State) : (s.markSetdc).first = s.first := rfl
@[simp] theorem State.markSetdc_tickPending (s : State) : (s.markSetdc).tickPending = s.tickPending := rfl
@[simp] theorem State.markSetdc_phase (s : State) : (s.markSetdc).phase = s.phase := rfl
@[simp] theorem State.markSetdc_lines (s : State) : (s.markSetdc).lines = s.lines := rfl
@[simp] theorem State.markSetdc_markers (s : State) : (s.markSetdc).markers = s.markers.addIf s.progIssued .m5 := rfl
@[simp] theorem State.markSetdc_progIssued (s : State) : (s.markSetdc).progIssued = s.progIssued := rfl
@[simp] theorem State.markSetdc_refreshStarted (s : State) : (s.markSetdc).refreshStarted = s.refreshStarted := rfl
@[simp] theorem State.markSetdc_trace (s : State) : (s.markSetdc).trace = s.trace := rfl
@[simp] theorem State.markSetdc_hostPort (s : State) : (s.markSetdc).hostPort = s.hostPort := rfl
@[simp] theorem State.markSetdc_tickPort (s : State) : (s.markSetdc).tickPort = s.tickPort := rfl
@[simp] theorem State.markSetdc_turns (s : State) : (s.markSetdc).turns = s.turns := rfl
@[simp] theorem State.markSetdc_choices (s : State) : (s.markSetdc).choices = s.choices := rfl

/-! ### markSetgs -/

@[simp] theorem State.markSetgs_cfg (s : State) (c : Nat) : (s.markSetgs c).cfg = s.cfg := rfl
@[simp] theorem State.markSetgs_dc (s : State) (c : Nat) : (s.markSetgs c).dc = s.dc := rfl
@[simp] theorem State.markSetgs_gs (s : State) (c : Nat) : (s.markSetgs c).gs = s.gs := rfl
@[simp] theorem State.markSetgs_pendingUpdate (s : State) (c : Nat) : (s.markSetgs c).pendingUpdate = s.pendingUpdate := rfl
@[simp] theorem State.markSetgs_pendingLatch (s : State) (c : Nat) : (s.markSetgs c).pendingLatch = s.pendingLatch := rfl
@[simp] theorem State.markSetgs_first (s : State) (c : Nat) : (s.markSetgs c).first = s.first := rfl
@[simp] theorem State.markSetgs_tickPending (s : State) (c : Nat) : (s.markSetgs c).tickPending = s.tickPending := rfl
@[simp] theorem State.markSetgs_phase (s : State) (c : Nat) : (s.markSetgs c).phase = s.phase := rfl
@[simp] theorem State.markSetgs_lines (s : State) (c : Nat) : (s.markSetgs c).lines = s.lines := rfl
@[simp] theorem State.markSetgs_markers (s : State) (c : Nat) : (s.markSetgs c).markers = s.markers.addIf (decide (c < s.cfg.nCh) && (s.pendingUpdate || s.phase.isS)) .m9 := rfl
@[simp] theorem State.markSetgs_progIssued (s : State) (c : Nat) : (s.markSetgs c).progIssued = s.progIssued := rfl
@[simp] theorem State.markSetgs_refreshStarted (s : State) (c : Nat) : (s.markSetgs c).refreshStarted = s.refreshStarted := rfl
@[simp] theorem State.markSetgs_trace (s : State) (c : Nat) : (s.markSetgs c).trace = s.trace := rfl
@[simp] theorem State.markSetgs_hostPort (s : State) (c : Nat) : (s.markSetgs c).hostPort = s.hostPort := rfl
@[simp] theorem State.markSetgs_tickPort (s : State) (c : Nat) : (s.markSetgs c).tickPort = s.tickPort := rfl
@[simp] theorem State.markSetgs_turns (s : State) (c : Nat) : (s.markSetgs c).turns = s.turns := rfl
@[simp] theorem State.markSetgs_choices (s : State) (c : Nat) : (s.markSetgs c).choices = s.choices := rfl

/-! ### markProgram -/

@[simp] theorem State.markProgram_cfg (s : State) : (s.markProgram).cfg = s.cfg := rfl
@[simp] theorem State.markProgram_dc (s : State) : (s.markProgram).dc = s.dc := rfl
@[simp] theorem State.markProgram_gs (s : State) : (s.markProgram).gs = s.gs := rfl
@[simp] theorem State.markProgram_pendingUpdate (s : State) : (s.markProgram).pendingUpdate = s.pendingUpdate := rfl
@[simp] theorem State.markProgram_pendingLatch (s : State) : (s.markProgram).pendingLatch = s.pendingLatch := rfl
@[simp] theorem State.markProgram_first (s : State) : (s.markProgram).first = s.first := rfl
@[simp] theorem State.markProgram_tickPending (s : State) : (s.markProgram).tickPending = s.tickPending := rfl
@[simp] theorem State.markProgram_phase (s : State) : (s.markProgram).phase = s.phase := rfl
@[simp] theorem State.markProgram_lines (s : State) : (s.markProgram).lines = s.lines := rfl
@[simp] theorem State.markProgram_markers (s : State) : (s.markProgram).markers = (s.markers.addIf s.progIssued .m3).addIf s.refreshStarted .m4 := rfl
@[simp] theorem State.markProgram_progIssued (s : State) : (s.markProgram).progIssued = s.progIssued := rfl
@[simp] theorem State.markProgram_refreshStarted (s : State) : (s.markProgram).refreshStarted = s.refreshStarted := rfl
@[simp] theorem State.markProgram_trace (s : State) : (s.markProgram).trace = s.trace := rfl
@[simp] theorem State.markProgram_hostPort (s : State) : (s.markProgram).hostPort = s.hostPort := rfl
@[simp] theorem State.markProgram_tickPort (s : State) : (s.markProgram).tickPort = s.tickPort := rfl
@[simp] theorem State.markProgram_turns (s : State) : (s.markProgram).turns = s.turns := rfl
@[simp] theorem State.markProgram_choices (s : State) : (s.markProgram).choices = s.choices := rfl

/-! ### markTick -/

@[simp] theorem State.markTick_cfg (s : State) : (s.markTick).cfg = s.cfg := rfl
@[simp] theorem State.markTick_dc (s : State) : (s.markTick).dc = s.dc := rfl
@[simp] theorem State.markTick_gs (s : State) : (s.markTick).gs = s.gs := rfl
@[simp] theorem State.markTick_pendingUpdate (s : State) : (s.markTick).pendingUpdate = s.pendingUpdate := rfl
@[simp] theorem State.markTick_pendingLatch (s : State) : (s.markTick).pendingLatch = s.pendingLatch := rfl
@[simp] theorem State.markTick_first (s : State) : (s.markTick).first = s.first := rfl
@[simp] theorem State.markTick_tickPending (s : State) : (s.markTick).tickPending = s.tickPending := rfl
@[simp] theorem State.markTick_phase (s : State) : (s.markTick).phase = s.phase := rfl
@[simp] theorem State.markTick_lines (s : State) : (s.markTick).lines = s.lines := rfl
@[simp] theorem State.markTick_markers (s : State) : (s.markTick).markers = (((s.markers.addIf (!s.progIssued) .m1).addIf s.phase.isP .m2).addIf s.phase.isRefresh .m6).addIf s.tickPending .m7 := rfl
@[simp] theorem State.markTick_progIssued (s : State) : (s.markTick).progIssued = s.progIssued := rfl
@[simp] theorem State.markTick_refreshStarted (s : State) : (s.markTick).refreshStarted = s.refreshStarted := rfl
@[simp] theorem State.markTick_trace (s : State) : (s.markTick).trace = s.trace := rfl
@[simp] theorem State.markTick_hostPort (s : State) : (s.markTick).hostPort = s.hostPort := rfl
@[simp] theorem State.markTick_tickPort (s : State) : (s.markTick).tickPort = s.tickPort := rfl
@[simp] theorem State.markTick_turns (s : State) : (s.markTick).turns = s.turns := rfl
@[simp] theorem State.markTick_choices (s : State) : (s.markTick).choices = s.choices := rfl

/-! ### setPort, resetBlock -/

@[simp] theorem State.setPort_cfg (s : State) (p : Port) (ws : List Word) : (s.setPort p ws).cfg = s.cfg := by
  cases p <;> rfl
@[simp] theorem State.setPort_dc (s : State) (p : Port) (ws : List Word) : (s.setPort p ws).dc = s.dc := by
  cases p <;> rfl
@[simp] theorem State.setPort_gs (s : State) (p : Port) (ws : List Word) : (s.setPort p ws).gs = s.gs := by
  cases p <;> rfl
@[simp] theorem State.setPort_pendingUpdate (s : State) (p : Port) (ws : List Word) : (s.setPort p ws).pendingUpdate = s.pendingUpdate := by
  cases p <;> rfl
@[simp] theorem State.setPort_pendingLatch (s : State) (p : Port) (ws : List Word) : (s.setPort p ws).pendingLatch = s.pendingLatch := by
  cases p <;> rfl
@[simp] theorem State.setPort_first (s : State) (p : Port) (ws : List Word) : (s.setPort p ws).first = s.first := by
  cases p <;> rfl
@[simp] theorem State.setPort_tickPending (s : State) (p : Port) (ws : List Word) : (s.setPort p ws).tickPending = s.tickPending := by
  cases p <;> rfl
@[simp] theorem State.setPort_phase (s : State) (p : Port) (ws : List Word) : (s.setPort p ws).phase = s.phase := by
  cases p <;> rfl
@[simp] theorem State.setPort_lines (s : State) (p : Port) (ws : List Word) : (s.setPort p ws).lines = s.lines := by
  cases p <;> rfl
@[simp] theorem State.setPort_markers (s : State) (p : Port) (ws : List Word) : (s.setPort p ws).markers = s.markers := by
  cases p <;> rfl
@[simp] theorem State.setPort_progIssued (s : State) (p : Port) (ws : List Word) : (s.setPort p ws).progIssued = s.progIssued := by
  cases p <;> rfl
@[simp] theorem State.setPort_refreshStarted (s : State) (p : Port) (ws : List Word) : (s.setPort p ws).refreshStarted = s.refreshStarted := by
  cases p <;> rfl
@[simp] theorem State.setPort_trace (s : State) (p : Port) (ws : List Word) : (s.setPort p ws).trace = s.trace := by
  cases p <;> rfl
@[simp] theorem State.setPort_turns (s : State) (p : Port) (ws : List Word) : (s.setPort p ws).turns = s.turns := by
  cases p <;> rfl
@[simp] theorem State.setPort_choices (s : State) (p : Port) (ws : List Word) : (s.setPort p ws).choices = s.choices := by
  cases p <;> rfl

@[simp] theorem State.setPort_port_self (s : State) (p : Port) (ws : List Word) :
    (s.setPort p ws).port p = ws := by
  cases p <;> rfl

theorem State.setPort_port_ne (s : State) {p q : Port} (h : q ≠ p) (ws : List Word) :
    (s.setPort p ws).port q = s.port q := by
  cases p <;> cases q <;> first | rfl | exact absurd rfl h

@[simp] theorem State.resetBlock_cfg (s : State) : s.resetBlock.cfg = s.cfg := rfl
@[simp] theorem State.resetBlock_dc (s : State) : s.resetBlock.dc = List.replicate (16 * s.cfg.nChips.val) 63 := rfl
@[simp] theorem State.resetBlock_gs (s : State) : s.resetBlock.gs = List.replicate (16 * s.cfg.nChips.val) 0 := rfl
@[simp] theorem State.resetBlock_pendingUpdate (s : State) : s.resetBlock.pendingUpdate = false := rfl
@[simp] theorem State.resetBlock_pendingLatch (s : State) : s.resetBlock.pendingLatch = false := rfl
@[simp] theorem State.resetBlock_first (s : State) : s.resetBlock.first = false := rfl
@[simp] theorem State.resetBlock_tickPending (s : State) : s.resetBlock.tickPending = false := rfl
@[simp] theorem State.resetBlock_phase (s : State) : s.resetBlock.phase = .idle := rfl
@[simp] theorem State.resetBlock_lines (s : State) : s.resetBlock.lines = Lines.reset := rfl
@[simp] theorem State.resetBlock_markers (s : State) : s.resetBlock.markers = Markers.empty := rfl
@[simp] theorem State.resetBlock_progIssued (s : State) : s.resetBlock.progIssued = false := rfl
@[simp] theorem State.resetBlock_refreshStarted (s : State) : s.resetBlock.refreshStarted = false := rfl
@[simp] theorem State.resetBlock_trace (s : State) : s.resetBlock.trace = [] := rfl
@[simp] theorem State.resetBlock_hostPort (s : State) : s.resetBlock.hostPort = s.hostPort := rfl
@[simp] theorem State.resetBlock_tickPort (s : State) : s.resetBlock.tickPort = s.tickPort := rfl
@[simp] theorem State.resetBlock_turns (s : State) : s.resetBlock.turns = s.turns := rfl
@[simp] theorem State.resetBlock_choices (s : State) : s.resetBlock.choices = s.choices := rfl

/-! ### Lines, levels and markers -/

@[simp] theorem Lines.get_set_self (l : Lines) (x : Line) (b : Level) : (l.set x b).get x = b := by
  cases x <;> rfl

theorem Lines.get_set_ne (l : Lines) {x y : Line} (h : y ≠ x) (b : Level) :
    (l.set x b).get y = l.get y := by
  cases x <;> cases y <;> first | rfl | exact absurd rfl h

/-- Two records of levels are equal when every line has the same level in both. -/
theorem Lines.ext_get {l m : Lines} (h : ∀ x, l.get x = m.get x) : l = m := by
  have h1 := h .sclk; have h2 := h .sin; have h3 := h .xlat; have h4 := h .blank; have h5 := h .vprg
  cases l; cases m; simp_all [Lines.get]

@[simp] theorem levelsAfter_nil (l : Lines) : levelsAfter l [] = l := rfl

@[simp] theorem levelsAfter_cons (l : Lines) (e : Event) (es : List Event) :
    levelsAfter l (e :: es) = levelsAfter (l.after e) es := rfl

@[simp] theorem levelsAfter_append (l : Lines) (es fs : List Event) :
    levelsAfter l (es ++ fs) = levelsAfter (levelsAfter l es) fs := by
  simp [levelsAfter]

/-- The set with a marker added has what it had, and the marker if the condition held. -/
theorem Markers.has_addIf (ms : Markers) (b : Bool) (m n : Marker) :
    (ms.addIf b m).has n = (ms.has n || (b && decide (n = m))) := by
  cases m <;> cases n <;> simp [Markers.addIf, Markers.has]

@[simp] theorem Markers.has_empty (m : Marker) : Markers.empty.has m = false := by
  cases m <;> rfl

end Sys2Proof.Machine
end

