-- ==== Sys2Proof/Laws/Ops.lean ====
section
/-! SUPPORT. What each shared operation can do, said once: acceptance, the command step, the bit reads, the
arrays, the clamps. -/

namespace Sys2Proof.Machine

/-- `L_DC` is 6 bits for each channel (spec/00_scope.md R9). -/
theorem Config.lDC_eq (g : Config) : g.lDC = 6 * g.nCh := by
  simp only [Config.lDC, Config.nCh]; omega

/-- `L_GS` is 12 bits for each channel (spec/00_scope.md R9). -/
theorem Config.lGS_eq (g : Config) : g.lGS = 12 * g.nCh := by
  simp only [Config.lGS, Config.nCh]; omega

/-- There are at most 4096 channels (spec/30_encoding.md R57). -/
theorem Config.nCh_le (g : Config) : g.nCh ≤ 4096 := by
  have := g.nChips.isLt; simp only [Config.nCh]; omega

/-! ### Acceptance and the command step -/

/-- Acceptance looks at the phase alone. -/
theorem accepts_congr (i : Instr) {s t : State} (h : s.phase = t.phase) : accepts i s = accepts i t := by
  cases i <;> simp [accepts, h]

theorem whenAccepted_of_accepts {i : Instr} {s : State} (f : State → State) (h : accepts i s = true) :
    whenAccepted i s f = .next (f s) := by
  simp [whenAccepted, h]

theorem whenAccepted_of_held {i : Instr} {s : State} (f : State → State) (h : accepts i s = false) :
    whenAccepted i s f = .next s := by
  simp [whenAccepted, h]

/-- A command step answers a next state: its effect when accepted, and the state as it was when held. -/
theorem whenAccepted_next {i : Instr} {s t : State} {f : State → State}
    (h : whenAccepted i s f = .next t) :
    (accepts i s = true ∧ t = f s) ∨ (accepts i s = false ∧ t = s) := by
  cases ha : accepts i s with
  | true => rw [whenAccepted_of_accepts f ha] at h; cases h; exact .inl ⟨rfl, rfl⟩
  | false => rw [whenAccepted_of_held f ha] at h; cases h; exact .inr ⟨rfl, rfl⟩

/-! ### Phases -/

/-- The P, R and S phases and `IDLE` exclude one another (spec/10_state.md R23). -/
theorem Phase.isP_not_refresh {p : Phase} (h : p.isP = true) : p.isRefresh = false := by
  cases p <;> simp_all [Phase.isP, Phase.isRefresh, Phase.isR, Phase.isS]

theorem Phase.trichotomy (p : Phase) : p = .idle ∨ p.isP = true ∨ p.isRefresh = true := by
  cases p <;> simp [Phase.isP, Phase.isRefresh, Phase.isR, Phase.isS]

/-! ### Clamps and bits -/

theorem clampDc_eq_min (v : Nat) : clampDc v = min v 63 := by
  unfold clampDc; split <;> omega

theorem clampGs_eq_min (v : Nat) : clampGs v = min v 4095 := by
  unfold clampGs; split <;> omega

theorem dotOf_eq (v : Nat) : dotOf v = BitVec.ofNat 6 (min v 63) := by
  rw [dotOf, clampDc_eq_min]

theorem greyOf_eq (v : Nat) : greyOf v = BitVec.ofNat 12 (min v 4095) := by
  rw [greyOf, clampGs_eq_min]

/-- The bit of a position that exists is a bit of its element. -/
theorem dcBit_of_lt {dc : List Dot} {k : Nat} (h : k / 6 < dc.length) :
    dcBit dc k = some ((dc.getD (k / 6) 0).getLsbD (5 - k % 6)) := by
  simp [dcBit, h]

theorem gsBit_of_lt {gs : List Grey} {k : Nat} (h : k / 12 < gs.length) :
    gsBit gs k = some ((gs.getD (k / 12) 0).getLsbD (11 - k % 12)) := by
  simp [gsBit, h]

/-! ### The arrays -/

theorem writeDc_length (s : State) (c : Nat) (v : Dot) : (s.writeDc c v).dc.length = s.dc.length := by
  simp only [State.writeDc_dc]; split <;> simp

theorem writeGs_length (s : State) (c : Nat) (v : Grey) : (s.writeGs c v).gs.length = s.gs.length := by
  simp only [State.writeGs_gs]; split <;> simp

/-- A write to the correction array: the named channel, if it is one of the block's, and no other. -/
theorem writeDc_get (s : State) (c : Nat) (v : Dot) (h : s.dc.length = s.cfg.nCh) (j : Nat) :
    (s.writeDc c v).dc[j]? = if j = c ∧ c < s.cfg.nCh then some v else s.dc[j]? := by
  simp only [State.writeDc_dc]
  by_cases hc : c < s.cfg.nCh
  · by_cases hj : j = c
    · subst hj; simp [hc, h]
    · simp [hc, hj, List.getElem?_set_ne (Ne.symm hj)]
  · simp [hc]

/-- A write to the brightness array: the named channel, if it is one of the block's, and no other. -/
theorem writeGs_get (s : State) (c : Nat) (v : Grey) (h : s.gs.length = s.cfg.nCh) (j : Nat) :
    (s.writeGs c v).gs[j]? = if j = c ∧ c < s.cfg.nCh then some v else s.gs[j]? := by
  simp only [State.writeGs_gs]
  by_cases hc : c < s.cfg.nCh
  · by_cases hj : j = c
    · subst hj; simp [hc, h]
    · simp [hc, hj, List.getElem?_set_ne (Ne.symm hj)]
  · simp [hc]

/-! ### The trace -/

theorem captureFrom_append (l : Lines) (es fs : List Event) :
    captureFrom l (es ++ fs) = captureFrom l es ++ captureFrom (levelsAfter l es) fs := by
  induction es generalizing l with
  | nil => rfl
  | cons e es ih => simp only [List.cons_append, captureFrom, levelsAfter_cons]; split <;> simp [ih]

theorem receiveFrom_append (g : Config) (l : Lines) (r : Receiver) (es fs : List Event) :
    receiveFrom g l r (es ++ fs) = receiveFrom g (levelsAfter l es) (receiveFrom g l r es) fs := by
  induction es generalizing l r with
  | nil => rfl
  | cons e es ih => simp only [List.cons_append, receiveFrom, levelsAfter_cons, ih]

theorem latchesBlanked_append (l : Lines) (es fs : List Event) :
    latchesBlanked l (es ++ fs) = (latchesBlanked l es && latchesBlanked (levelsAfter l es) fs) := by
  induction es generalizing l with
  | nil => simp [latchesBlanked]
  | cons e es ih => simp only [List.cons_append, latchesBlanked, levelsAfter_cons, ih, Bool.and_assoc]

theorem edgesOnly_append (l : Lines) (es fs : List Event) :
    edgesOnly l (es ++ fs) = (edgesOnly l es && edgesOnly (levelsAfter l es) fs) := by
  induction es generalizing l with
  | nil => simp [edgesOnly]
  | cons e es ih => simp only [List.cons_append, edgesOnly, levelsAfter_cons, ih, Bool.and_assoc]

end Sys2Proof.Machine
end

