-- ==== Sys2Proof/Laws/Exec.lean ====
section
/-! SUPPORT. What a command step can do, said once: it is the command's effect when accepted, and nothing
when held. -/

namespace Sys2Proof.Machine

/-- The effect of a command that is accepted, gathered from the meanings. -/
def effect (i : Instr) (s : State) : State :=
  match i with
  | .nop => s
  | .setdc c v => s.markSetdc.writeDc c (dotOf v)
  | .setgs c v => (s.markSetgs c).writeGs c (greyOf v)
  | .commit => { s with pendingUpdate := true }
  | .program => { s.markProgram with progIssued := true, phase := programEntry s.cfg }
  | .tick => { s.markTick with tickPending := true }
  | .reserved6 => s.markIf true .m8
  | .reserved7 => s.markIf true .m8
  | .reserved8 => s.markIf true .m8
  | .reserved9 => s.markIf true .m8
  | .reservedA => s.markIf true .m8
  | .reservedB => s.markIf true .m8
  | .reservedC => s.markIf true .m8
  | .reservedD => s.markIf true .m8
  | .reservedE => s.markIf true .m8
  | .reservedF => s.markIf true .m8

/-- Every meaning is its effect behind the acceptance rule. -/
theorem exec_eq (i : Instr) (s : State) : exec i s = whenAccepted i s (effect i) := by
  cases i <;> rfl

theorem exec_of_accepts {i : Instr} {s : State} (h : accepts i s = true) :
    exec i s = .next (effect i s) := by
  rw [exec_eq, whenAccepted_of_accepts _ h]

/-- A command step that answers a next state is the effect, or the wait of a command that holds. -/
theorem exec_next {i : Instr} {s t : State} (h : exec i s = .next t) :
    (accepts i s = true ∧ t = effect i s) ∨ (accepts i s = false ∧ t = s) :=
  whenAccepted_next (exec_eq i s ▸ h)

end Sys2Proof.Machine
end

