-- ==== Sys2Proof/Laws/Fields.lean ====
section
/-! SUPPORT. The fields of a word put together by `cmd32`, and a word put together from its fields. -/

namespace Sys2Proof

theorem cmd32_toNat (op : BitVec 4) (c : BitVec 12) (v : BitVec 16) :
    (cmd32 op c v).toNat = op.toNat * 2 ^ 28 + c.toNat * 2 ^ 16 + v.toNat := by
  have := op.isLt; have := c.isLt; have := v.isLt
  simp only [cmd32, BitVec.toNat_append]
  rw [← Nat.shiftLeft_add_eq_or_of_lt (by omega), ← Nat.shiftLeft_add_eq_or_of_lt (by omega)]
  simp only [Nat.shiftLeft_eq]
  omega

@[simp] theorem opField_cmd32 (op : BitVec 4) (c : BitVec 12) (v : BitVec 16) :
    opField (cmd32 op c v) = op := by
  apply BitVec.eq_of_toNat_eq
  have := op.isLt; have := c.isLt; have := v.isLt
  simp only [opField, BitVec.extractLsb'_toNat, cmd32_toNat, Nat.shiftRight_eq_div_pow]
  omega

@[simp] theorem chanField_cmd32 (op : BitVec 4) (c : BitVec 12) (v : BitVec 16) :
    chanField (cmd32 op c v) = c := by
  apply BitVec.eq_of_toNat_eq
  have := op.isLt; have := c.isLt; have := v.isLt
  simp only [chanField, BitVec.extractLsb'_toNat, cmd32_toNat, Nat.shiftRight_eq_div_pow]
  omega

@[simp] theorem valueField_cmd32 (op : BitVec 4) (c : BitVec 12) (v : BitVec 16) :
    valueField (cmd32 op c v) = v := by
  apply BitVec.eq_of_toNat_eq
  have := op.isLt; have := c.isLt; have := v.isLt
  simp only [valueField, BitVec.extractLsb'_toNat, cmd32_toNat, Nat.shiftRight_eq_div_pow]
  omega

/-- A word is put together from its three fields (spec/30_encoding.md R55). -/
theorem cmd32_fields (w : Word) : cmd32 (opField w) (chanField w) (valueField w) = w := by
  apply BitVec.eq_of_toNat_eq
  have := w.isLt
  simp only [cmd32_toNat, opField, chanField, valueField, BitVec.extractLsb'_toNat,
    Nat.shiftRight_eq_div_pow]
  omega

end Sys2Proof
end

