-- ==== Sys2Proof/Laws/PerInstr.lean ====
section
/-! SUPPORT. Statements for all commands, one lemma for each constructor. -/

namespace Sys2Proof.Laws

/-- The word of a command has the command's operation value in its `op` field (spec/30_encoding.md R56). -/
def OpField.Statement (i : Instr) : Prop := opField (encode i) = i.opcode

theorem OpField.nop : OpField.Statement (.nop) := by
  simp [OpField.Statement, encode]

theorem OpField.setdc (c v : Nat) : OpField.Statement (.setdc c v) := by
  simp [OpField.Statement, encode]

theorem OpField.setgs (c v : Nat) : OpField.Statement (.setgs c v) := by
  simp [OpField.Statement, encode]

theorem OpField.commit : OpField.Statement (.commit) := by
  simp [OpField.Statement, encode]

theorem OpField.program : OpField.Statement (.program) := by
  simp [OpField.Statement, encode]

theorem OpField.tick : OpField.Statement (.tick) := by
  simp [OpField.Statement, encode]

theorem OpField.reserved6 : OpField.Statement (.reserved6) := by
  simp [OpField.Statement, encode]

theorem OpField.reserved7 : OpField.Statement (.reserved7) := by
  simp [OpField.Statement, encode]

theorem OpField.reserved8 : OpField.Statement (.reserved8) := by
  simp [OpField.Statement, encode]

theorem OpField.reserved9 : OpField.Statement (.reserved9) := by
  simp [OpField.Statement, encode]

theorem OpField.reservedA : OpField.Statement (.reservedA) := by
  simp [OpField.Statement, encode]

theorem OpField.reservedB : OpField.Statement (.reservedB) := by
  simp [OpField.Statement, encode]

theorem OpField.reservedC : OpField.Statement (.reservedC) := by
  simp [OpField.Statement, encode]

theorem OpField.reservedD : OpField.Statement (.reservedD) := by
  simp [OpField.Statement, encode]

theorem OpField.reservedE : OpField.Statement (.reservedE) := by
  simp [OpField.Statement, encode]

theorem OpField.reservedF : OpField.Statement (.reservedF) := by
  simp [OpField.Statement, encode]

end Sys2Proof.Laws
end

