-- ==== Sys2Proof/Laws/Step.lean ====
section
/-! SUPPORT. What a step can do, said once: the port's turn, the whole step, the command step, the
micro-step, a run of micro-steps. -/

namespace Sys2Proof.Machine

/-- The turn of a port: nothing on it, an accepted word, or a word that holds. -/
theorem portStep_cases (p : Port) (s : State) :
    (s.port p = [] ∧ portStep p s = .next s) ∨
      ∃ w ws, s.port p = w :: ws ∧
        ((accepts (decode w) s = true ∧ portStep p s = exec (decode w) (s.setPort p ws)) ∨
          (accepts (decode w) s = false ∧ portStep p s = .next s)) := by
  cases h : s.port p with
  | nil => exact .inl ⟨rfl, by simp [portStep, h]⟩
  | cons w ws =>
    refine .inr ⟨w, ws, rfl, ?_⟩
    cases ha : accepts (decode w) s with
    | true => exact .inl ⟨rfl, by simp [portStep, h, ha]⟩
    | false => exact .inr ⟨rfl, by simp [portStep, h, ha]⟩

theorem mem_enabledTurns {t : Turn} {s : State} (h : t ∈ enabledTurns s) : t ≠ .reset := by
  rintro rfl
  simp only [enabledTurns, List.mem_append] at h
  rcases h with (h | h) | h <;> split at h <;> simp at h

/-- The whole step: nothing, or one turn, which is the reset input only where that is the listed turn, from
a state that differs in `turns` and `choices` alone. -/
theorem takeTurn_cases (s : State) :
    takeTurn s = .next s ∨
      ∃ t ts c, takeTurn s = turnStep t { s with turns := ts, choices := c } ∧
        (t = .reset → s.turns.head? = some .reset) := by
  cases h : s.turns with
  | cons t ts => exact .inr ⟨t, ts, s.choices, by simp [takeTurn, h], by rintro rfl; simp⟩
  | nil =>
    cases he : enabledTurns s with
    | nil => exact .inl (by simp [takeTurn, h, he])
    | cons t us =>
      have hm : ∀ u, u ∈ t :: us → u ≠ .reset := fun u hu => mem_enabledTurns (he ▸ hu)
      cases us with
      | nil =>
        have ht : takeTurn s = turnStep t s := by simp [takeTurn, h, he]
        refine .inr ⟨t, s.turns, s.choices, ht, ?_⟩
        exact fun ht => absurd ht (hm t (by simp))
      | cons u us =>
        refine .inr ⟨_, s.turns, s.choices + 1, by simp only [takeTurn, h, he]; rfl, ?_⟩
        intro ht
        refine absurd ht (hm _ ?_)
        rw [List.getD_eq_getElem?_getD]
        cases hg : (t :: u :: us)[Config.freeRank s.choices % (us.length + 2)]? with
        | none => simp
        | some x => simpa [hg] using List.mem_of_getElem? hg

/-- A micro-step answers a next state in one of these ways: it keeps the state, starts or ends an
invocation, clears one flag, or drives one line; in each it names the next phase. -/
theorem microStep_cases {s t : State} (h : microStep s = .next t) :
    (s.phase = .idle ∧ s.tickPending = false ∧ t = s) ∨
    (s.phase = .idle ∧ s.tickPending = true ∧ t = refreshStart s) ∨
    (s.phase = .rTest ∧ s.pendingUpdate = false ∧ t = endInvocation s false) ∨
    (s.phase = .rTest ∧ s.pendingUpdate = true ∧
      t = State.goto { s with pendingUpdate := false } (clockOutEntry s.cfg)) ∨
    (s.phase = .sDone ∧ t = endInvocation s true) ∨
    (s.phase = .rClrLatch ∧ t = State.goto { s with pendingLatch := false } s.afterLatch) ∨
    ∃ x b p, t = (s.drive x b).goto p ∧
      ((∃ k, s.phase = .pData k ∧ x = .sin ∧ dcBit s.dc k = some b ∧ p = .pClkH k) ∨
        (∃ k, s.phase = .pClkH k ∧ x = .sclk ∧ b = true ∧ p = .pClkL k) ∨
        (∃ k, s.phase = .pClkL k ∧ x = .sclk ∧ b = false ∧
          p = if k + 1 < s.cfg.lDC then .pData (k + 1) else .pXlatH) ∨
        (s.phase = .pXlatH ∧ x = .xlat ∧ b = true ∧ p = .pXlatL) ∨
        (s.phase = .pXlatL ∧ x = .xlat ∧ b = false ∧ p = .pUnblank) ∨
        (s.phase = .pUnblank ∧ x = .blank ∧ b = false ∧ p = .idle) ∨
        (s.phase = .rBlank ∧ x = .blank ∧ b = true ∧ p = s.afterBlank) ∨
        (s.phase = .rVprg ∧ x = .vprg ∧ b = false ∧ p = s.afterVprg) ∨
        (s.phase = .rXlatH ∧ x = .xlat ∧ b = true ∧ p = .rXlatL) ∨
        (s.phase = .rXlatL ∧ x = .xlat ∧ b = false ∧ p = .rClrLatch) ∨
        (s.phase = .rXclkH ∧ x = .sclk ∧ b = true ∧ p = .rXclkL) ∨
        (s.phase = .rXclkL ∧ x = .sclk ∧ b = false ∧ p = .rUnblank) ∨
        (s.phase = .rUnblank ∧ x = .blank ∧ b = false ∧ p = .rTest) ∨
        (∃ k, s.phase = .sData k ∧ x = .sin ∧ gsBit s.gs k = some b ∧ p = .sClkH k) ∨
        (∃ k, s.phase = .sClkH k ∧ x = .sclk ∧ b = true ∧ p = .sClkL k) ∨
        (∃ k, s.phase = .sClkL k ∧ x = .sclk ∧ b = false ∧
          p = if k + 1 < s.cfg.lGS then .sData (k + 1) else .sDone)) := by
  cases hp : s.phase with
  | idle =>
    simp only [microStep, hp, stepIdle] at h
    split at h <;> cases h <;> simp_all
  | rTest =>
    simp only [microStep, hp, stepRTest] at h
    split at h <;> cases h <;> simp_all
  | pData k =>
    simp only [microStep, hp, stepPData] at h
    split at h <;> cases h
    exact .inr (.inr (.inr (.inr (.inr (.inr ⟨_, _, _, rfl, by simp_all⟩)))))
  | sData k =>
    simp only [microStep, hp, stepSData] at h
    split at h <;> cases h
    exact .inr (.inr (.inr (.inr (.inr (.inr ⟨_, _, _, rfl, by simp_all⟩)))))
  | sDone =>
    simp only [microStep, hp, stepSDone] at h; cases h; simp
  | rClrLatch =>
    simp only [microStep, hp, stepRClrLatch] at h; cases h; simp
  | _ =>
    simp only [microStep, hp, stepPClkH, stepPClkL, stepPXlatH, stepPXlatL, stepPUnblank, stepRBlank,
      stepRVprg, stepRXlatH, stepRXlatL, stepRXclkH, stepRXclkL, stepRUnblank, stepSClkH, stepSClkL] at h
    cases h
    exact .inr (.inr (.inr (.inr (.inr (.inr ⟨_, _, _, rfl, by simp⟩)))))

/-- A turn of a port that answers a next state: nothing is taken, or an accepted word is, and has its effect. -/
theorem portStep_next {p : Port} {s t : State} (h : portStep p s = .next t) :
    t = s ∨ ∃ w ws, s.port p = w :: ws ∧ accepts (decode w) s = true ∧
      t = effect (decode w) (s.setPort p ws) := by
  rcases portStep_cases p s with ⟨_, e⟩ | ⟨w, ws, hw, ⟨ha, e⟩ | ⟨-, e⟩⟩
  · rw [e] at h; cases h; exact .inl rfl
  · have hp : accepts (decode w) (s.setPort p ws) = true := by
      rw [← ha]; exact accepts_congr _ (by simp)
    rw [e, exec_of_accepts hp] at h; cases h
    exact .inr ⟨w, ws, hw, ha, rfl⟩
  · rw [e] at h; cases h; exact .inl rfl

/-- A step answers a next state in one of these ways: but for the inputs it keeps the state, or it is the
effect of an accepted word, one micro-step, or reset. -/
theorem step_cases {s t : State} (h : step s = .next t) :
    (∃ ts c, t = { s with turns := ts, choices := c }) ∨
    (∃ ts c p w ws, s.takes p w ∧ s.port p = w :: ws ∧
      t = effect (decode w) (State.setPort { s with turns := ts, choices := c } p ws)) ∨
    (∃ ts c, microStep { s with turns := ts, choices := c } = .next t) ∨
    (s.resetNext ∧ ∃ ts c, t = State.resetBlock { s with turns := ts, choices := c }) := by
  have port : ∀ p ts c, portStep p { s with turns := ts, choices := c } = .next t →
      (∃ ts c, t = { s with turns := ts, choices := c }) ∨
      ∃ ts c p w ws, s.takes p w ∧ s.port p = w :: ws ∧
        t = effect (decode w) (State.setPort { s with turns := ts, choices := c } p ws) := by
    intro p ts c hp
    rcases portStep_next hp with e | ⟨w, ws, hw, ha, e⟩
    · exact .inl ⟨ts, c, e⟩
    · have hw' : s.port p = w :: ws := by rw [← hw]; cases p <;> rfl
      have ha' : accepts (decode w) s = true := by rw [← ha]; exact accepts_congr _ rfl
      exact .inr ⟨ts, c, p, w, ws, ⟨by simp [hw'], ha'⟩, hw', e⟩
  rcases takeTurn_cases s with e | ⟨u, ts, c, e, hr⟩
  · rw [step, e] at h; cases h; exact .inl ⟨s.turns, s.choices, rfl⟩
  · rw [step, e] at h
    cases u with
    | host => exact (port _ _ _ h).imp id .inl
    | tick => exact (port _ _ _ h).imp id .inl
    | sequencer => exact .inr (.inr (.inl ⟨ts, c, h⟩))
    | reset => cases h; exact .inr (.inr (.inr ⟨hr rfl, ts, c, rfl⟩))

/-- A micro-step faults only where it reads an element that does not exist. -/
theorem microStep_not_next {s : State} (h : ∀ t, microStep s ≠ .next t) :
    microStep s = .fault .noSuchElement ∧
      ∃ k, (s.phase = .pData k ∧ dcBit s.dc k = none) ∨ (s.phase = .sData k ∧ gsBit s.gs k = none) := by
  unfold microStep at h ⊢
  split at h
  case h_2 k hk =>
    unfold stepPData at h ⊢
    cases hb : dcBit s.dc k <;> simp_all
  case h_17 k hk =>
    unfold stepSData at h ⊢
    cases hb : gsBit s.gs k <;> simp_all
  all_goals
    simp_all [stepIdle, stepPClkH, stepPClkL, stepPXlatH, stepPXlatL, stepPUnblank, stepRBlank,
      stepRVprg, stepRXlatH, stepRXlatL, stepRClrLatch, stepRXclkH, stepRXclkL, stepRUnblank, stepRTest,
      stepSClkH, stepSClkL, stepSDone, ite_eq_iff]
  all_goals grind

/-- Runs of the sequencer compose. -/
theorem runSequencer_add (m n : Nat) {s t : State} (h : runSequencer m s = .next t) :
    runSequencer (m + n) s = runSequencer n t := by
  induction m generalizing s with
  | zero => simp only [runSequencer] at h; cases h; simp
  | succ m ih =>
    rw [Nat.succ_add]
    simp only [runSequencer] at h ⊢
    split at h
    · exact ih h
    · cases h
    · cases h

theorem runSequencer_succ {s t : State} (n : Nat) (h : microStep s = .next t) :
    runSequencer (n + 1) s = runSequencer n t := by
  simp [runSequencer, h]

end Sys2Proof.Machine
end

