-- ==== Sys2Proof/Tests/Slice0.lean ====
section
/-! SUPPORT. The model's own tests: well-formedness, decoding, one step for each command and kind of
micro-step, and a witness for the hypotheses of each statement. Expected values are those of
spec/95_test_vectors.md or worked by hand from the rules named. -/

namespace Sys2Proof.Machine.Tests

open Sys2Proof Sys2Proof.Machine

/-! ### States to test on -/

/-- The reset state of one chip, in another phase. -/
def inPhase (p : Phase) : State := { State.reset with phase := p }

/-- The block after one programming sequence, as far as a test needs it: no trace. -/
def programmed : State :=
  { State.reset with progIssued := true, lines := { sclk := false, sin := true, xlat := false, blank := false, vprg := true } }

/-- A state's answer, when it is a next state. -/
def nextOf : Result → Option State
  | .next t => some t
  | .fault _ => none
  | .refused _ => none

/-! ### WellFormed refuses an operand outside its field (R57, R58, R65) -/

theorem test_wf_refuses_setdc_channel_4096 : (Instr.setdc 4096 0).wf = false := by decide
theorem test_wf_refuses_setdc_value_65536 : (Instr.setdc 0 65536).wf = false := by decide
theorem test_wf_refuses_setgs_channel_4096 : (Instr.setgs 4096 0).wf = false := by decide
theorem test_wf_refuses_setgs_value_65536 : (Instr.setgs 0 65536).wf = false := by decide
theorem test_wf_admits_largest_operands : (Instr.setdc 4095 65535).wf = true := by decide

/-! ### Decoding: words written out bit by bit from R55 and R56, one for each constructor -/

theorem test_decode_nop : decode 0b0000_000000000000_0000000000000000#32 = .nop := by decide
theorem test_decode_nop_ignores_fields : decode 0b0000_101010111100_1101111011110000#32 = .nop := by decide
theorem test_decode_setdc : decode 0b0001_000000000011_0000000000101010#32 = .setdc 3 42 := by decide
theorem test_decode_setgs : decode 0b0010_000000000001_0000101010111100#32 = .setgs 1 2748 := by decide
theorem test_decode_commit : decode 0b0011_111111111111_1111111111111111#32 = .commit := by decide
theorem test_decode_program : decode 0b0100_000000000000_1111111111111111#32 = .program := by decide
theorem test_decode_tick : decode 0b0101_000100100011_1010101111001101#32 = .tick := by decide
theorem test_decode_reserved6 : decode 0b0110_000000000000_0000000000000000#32 = .reserved6 := by decide
theorem test_decode_reserved7 : decode 0b0111_000000000000_0000000000000000#32 = .reserved7 := by decide
theorem test_decode_reserved8 : decode 0b1000_000000000000_0000000000000001#32 = .reserved8 := by decide
theorem test_decode_reserved9 : decode 0b1001_000000000000_0000000000000000#32 = .reserved9 := by decide
theorem test_decode_reservedA : decode 0b1010_000000000000_0000000000000000#32 = .reservedA := by decide
theorem test_decode_reservedB : decode 0b1011_000000000001_0000000000000000#32 = .reservedB := by decide
theorem test_decode_reservedC : decode 0b1100_000000000000_0000000000000000#32 = .reservedC := by decide
theorem test_decode_reservedD : decode 0b1101_000000000000_0000000000000000#32 = .reservedD := by decide
theorem test_decode_reservedE : decode 0b1110_000000000000_0000000000000000#32 = .reservedE := by decide
theorem test_decode_reservedF : decode 0b1111_000000000000_0000000000000001#32 = .reservedF := by decide
/-- The word of R72's example, and the assembler's words of R65. -/
theorem test_encode_words :
    encode (.setdc 3 64) = 0x10030040 ∧ encode (.setgs 16 7) = 0x20100007 ∧ encode .commit = 0x30000000 ∧
      encode .program = 0x40000000 ∧ encode .tick = 0x50000000 ∧ encode .nop = 0 := by decide
theorem test_table_word : decodeTableWord 32 0x20010ABC = some (.setgs 1 2748) := by decide
theorem test_table_word_too_wide : decodeTableWord 48 0 = none := by decide

/-! ### Commands, one step each -/

/-- R77's word. -/
theorem test_nop_keeps_state : nextOf (step (State.reset.withFetchWord 32 0x0ABCDEF0)) = some State.reset := by decide
/-- R72's example: `setdc 3, 64` stores 63. V12 gives the value below the clamp. -/
theorem test_setdc_clamps :
    (nextOf (exec (.setdc 3 64) { State.reset with dc := List.replicate 16 0 })).map (fun t => t.dc[3]?) =
      some (some 63) := by decide
theorem test_setdc_after_program_out_of_range_adds_m5 :
    (nextOf (exec (.setdc 16 0) programmed)).map (fun t => (t.dc == programmed.dc, t.markers.has .m5)) =
      some (true, true) := by decide
/-- V20 and V22. -/
theorem test_setgs_clamps_and_races :
    (nextOf (exec (.setgs 7 4096) { State.reset with pendingUpdate := true })).map
      (fun t => (t.gs[7]?, t.markers.has .m9)) = some (some 4095, true) := by decide
/-- V23: out of range, no change and no marker. -/
theorem test_setgs_out_of_range :
    nextOf (exec (.setgs 16 100) { State.reset with pendingUpdate := true }) =
      some { State.reset with pendingUpdate := true } := by decide
/-- V24. -/
theorem test_commit :
    nextOf (step (State.reset.withFetchWord 32 0x30000000)) = some { State.reset with pendingUpdate := true } := by decide
/-- R79's example; V38 and V39 for the markers. -/
theorem test_program_starts_at_first_bit :
    nextOf (step (State.reset.withFetchWord 32 0x40000000)) =
      some { State.reset with progIssued := true, phase := .pData 0 } := by decide
theorem test_program_repeated_after_refresh :
    (nextOf (exec .program { programmed with refreshStarted := true })).map
      (fun t => (t.markers.has .m3, t.markers.has .m4, t.markers.has .m1)) = some (true, true, false) := by decide
/-- V36, and V34's third tick. -/
theorem test_tick_before_program :
    (nextOf (exec .tick State.reset)).map (fun t => (t.tickPending, t.markers.has .m1, t.markers.has .m7)) =
      some (true, true, false) := by decide
theorem test_tick_overrun_and_lost :
    (nextOf (exec .tick { programmed with phase := .sData 5, tickPending := true })).map
      (fun t => (t.markers.has .m6, t.markers.has .m7, t.markers.has .m1, t.markers.has .m2)) =
      some (true, true, false, false) := by decide
/-- V26, and each other reserved word. -/
theorem test_reserved_words_add_m8 :
    ([Instr.reserved6, .reserved7, .reserved8, .reserved9, .reservedA, .reservedB, .reservedC, .reservedD,
      .reservedE, .reservedF].map fun i => nextOf (exec i State.reset)) =
      List.replicate 10 (some { State.reset with markers := { Markers.empty with m8 := true } }) := by decide
/-- V27: a setter holds during the P phases, and its word stays on its port. -/
theorem test_setgs_holds_in_p_phase :
    nextOf (step ((inPhase (.pClkH 3)).withFetchWord 32 0x20000001)) =
      some { inPhase (.pClkH 3) with hostPort := [0x20000001] } := by decide

/-! ### Micro-steps -/

/-- V28: `DC[0]` = 42 = 101010, so position 1 is 0. -/
theorem test_p_data_drives_msb_first :
    (nextOf (microStep { inPhase (.pData 1) with dc := 42 :: List.replicate 15 0 })).map
      (fun t => (t.trace, t.phase)) = some ([{ line := .sin, level := false }], .pClkH 1) := by decide
/-- Section 2.5: `GS[1]` = 0xABC; positions 12 and 13 are 1 and 0. -/
theorem test_s_data_reads_channel_one :
    [12, 13].map (fun k =>
      (nextOf (microStep { inPhase (.sData k) with gs := 0 :: 0xABC :: List.replicate 14 0 })).map
        fun t => t.trace) =
      [some [{ line := .sin, level := true }], some [{ line := .sin, level := false }]] := by decide
theorem test_last_bit_goes_to_latch :
    (nextOf (microStep (inPhase (.pClkL 95)))).map (fun t => t.phase) = some .pXlatH ∧
      (nextOf (microStep (inPhase (.sClkL 191)))).map (fun t => t.phase) = some .sDone := by decide
theorem test_refresh_start_samples_vprg :
    (nextOf (microStep { programmed with tickPending := true })).map
      (fun t => (t.first, t.phase, t.tickPending, t.refreshStarted)) = some (true, .rBlank, false, true) := by decide
theorem test_gate_without_update_ends :
    (nextOf (microStep { inPhase .rTest with first := true })).map (fun t => (t.phase, t.first, t.trace)) =
      some (.idle, false, []) := by decide
/-- An element that does not exist: only in a state that breaks the invariant. -/
theorem test_missing_element_faults : nextOf (microStep { inPhase (.pData 0) with dc := [] }) = none := by decide
/-- R147: reset in a shift keeps the undelivered words. -/
theorem test_reset_turn :
    nextOf (step { inPhase (.sData 40) with turns := [.reset], hostPort := [0], pendingUpdate := true }) =
      some { State.reset with hostPort := [0] } := by decide

/-! ### The receiver and the assembler -/

/-- R119, R120: with no chip the registers stay empty; a latch of unknown cells is unknown. -/
theorem test_receiver_zero_chips :
    (receive { nChips := 0 } [{ line := .sclk, level := true }, { line := .xlat, level := true }]).sr = [] := by decide
theorem test_receiver_latch_unknown :
    (receive { nChips := 1 } [{ line := .xlat, level := true }]).dcr = List.replicate 16 none := by decide
theorem test_capture_takes_rising_edges :
    capture [{ line := .sin, level := true }, { line := .sclk, level := true }, { line := .sclk, level := false },
      { line := .sin, level := false }, { line := .sclk, level := true }] = [true, false] := by decide
theorem test_latches_are_indexed :
    latches [{ line := .sin, level := true }, { line := .xlat, level := true }, { line := .xlat, level := false }] =
      [1] := by decide
theorem test_assembler_refuses_wide_operand :
    assembleLine { nChips := 1 } (.command none (.setdc 0 65536)) = none := by decide
/-- R65: `tick` goes to the tick port; a tag overrides; the text of a line. -/
theorem test_assembler_ports :
    assembleLine { nChips := 1 } (.command none .tick) = some [.word .tick 0x50000000] ∧
      assembleLine { nChips := 1 } (.command (some .host) .tick) = some [.word .host 0x50000000] := by decide
theorem test_parse_line :
    parseLine ['s', 'e', 't', 'g', 's', ' ', '1', ',', ' ', '0', 'x', 'A', 'B', 'C', ' ', ';', 'n'] =
      some (some (.command none (.setgs 1 2748))) := by decide

/-! ### Witnesses: for each statement with hypotheses, a state and operands that meet them -/

theorem witness_DecodeInvertsEncode : (Instr.setgs 4095 65535).wf = true ∧ Instr.tick.wf = true := by decide
theorem witness_StepRunsTheDecodedCommand_accepted :
    ({ State.reset with turns := [.host], hostPort := [0x30000000] } : State).turns = Port.host.turn :: [] ∧
      accepts (decode 0x30000000) State.reset = true := by decide
theorem witness_StepRunsTheDecodedCommand_held :
    ({ inPhase .pXlatH with turns := [.tick], tickPort := [0x40000000] } : State).port .tick = [0x40000000] ∧
      accepts (decode 0x40000000) (inPhase .pXlatH) = false := by decide
theorem witness_OtherTurns :
    ({ State.reset with turns := [.sequencer] } : State).turns = [.sequencer] ∧
      ({ State.reset with turns := [.host] } : State).port .host = [] ∧
        State.reset.turns = [] ∧ State.reset.tickPending = false := by decide
theorem witness_UnlistedTurnIsAnEnabledAgents_none : enabledTurns State.reset = [] := by decide
theorem witness_UnlistedTurnIsAnEnabledAgents_several :
    enabledTurns { State.reset with hostPort := [0x40000000], tickPending := true } = [.host, .sequencer] := by decide
theorem witness_ResetTurnRestoresEverything :
    ({ inPhase (.sData 40) with turns := [.reset, .host] } : State).turns = .reset :: [.host] := by decide
theorem witness_AcceptanceFollowsPhase :
    accepts .program State.reset = true ∧ accepts .program (inPhase .rBlank) = false ∧
      accepts .commit (inPhase .rBlank) = true ∧ accepts .commit (inPhase .pUnblank) = false := by decide
theorem witness_setters : State.reset.ArraysFit ∧ State.reset.phase.isP = false := by decide
theorem witness_commands_in_refresh : (inPhase .sDone).ArraysFit ∧ (inPhase .sDone).phase.isP = false := by decide
theorem witness_ReservedWordOnlyAddsM8 :
    6 ≤ Instr.reserved6.opcode.toNat ∧ 6 ≤ Instr.reservedF.opcode.toNat ∧ ¬ 6 ≤ Instr.tick.opcode.toNat := by decide
theorem witness_ProgramStartsTheSequence : State.reset.phase = .idle ∧ programmed.phase = .idle := by decide
theorem witness_SettersAndCommitAreIdempotent_set : ∃ t, exec (.setdc 3 7) State.reset = .next t := ⟨_, rfl⟩
theorem witness_SettersAndCommitAreIdempotent_read : ∃ t, microStep (inPhase (.sData 191)) = .next t := ⟨_, rfl⟩
theorem witness_CommandFrame : ∃ t, exec .program State.reset = .next t ∧ t.phase = .pData 0 := ⟨_, rfl, by decide⟩
theorem witness_ShiftsAreMsbFirst :
    State.reset.ArraysFit ∧ 15 < State.reset.cfg.nCh ∧ 95 < State.reset.cfg.lDC ∧ 191 < State.reset.cfg.lGS := by decide
theorem witness_ProgrammingMicroSteps_first : (inPhase (.pData 0)).ArraysFit ∧ 0 < State.reset.cfg.lDC := by decide
theorem witness_ProgrammingMicroSteps_last : (inPhase (.pClkL 95)).ArraysFit ∧ 95 < State.reset.cfg.lDC := by decide
theorem witness_ProgrammingEndMicroSteps_first_refresh :
    ∃ t, runSequencer 3 { State.reset with tickPending := true } = .next t ∧ t.phase = .rXclkH ∧
      t.lines.vprg = false := ⟨_, rfl, by decide⟩
theorem witness_ProgrammingEndMicroSteps :
    (inPhase .pUnblank).phase.isP = true ∧ (∃ t, microStep (inPhase .pUnblank) = .next t) ∧
      ∃ t, microStep (inPhase .rVprg) = .next t := ⟨by decide, ⟨_, rfl⟩, ⟨_, rfl⟩⟩
theorem witness_RefreshMicroSteps :
    ∃ t, microStep { inPhase .rBlank with pendingLatch := true } = .next t ∧ t.phase = .rXlatH := ⟨_, rfl, by decide⟩
theorem witness_RefreshStart : ({ State.reset with tickPending := true } : State).phase = .idle ∧
    State.reset.tickPending = false := by decide
theorem witness_GateTestsAndClears :
    (inPhase .rTest).pendingUpdate = false ∧ ({ inPhase .rTest with pendingUpdate := true } : State).phase = .rTest := by decide
theorem witness_ClockOutMicroSteps : (inPhase (.sData 191)).ArraysFit ∧ 191 < State.reset.cfg.lGS := by decide
theorem witness_MicroStepFrame : ∃ t, microStep (inPhase (.pData 0)) = .next t ∧ t.lines ≠ State.reset.lines :=
  ⟨_, rfl, by decide⟩
theorem witness_SetgsIsSeenByTheNextBit : (inPhase (.sData 18)).ArraysFit ∧ 18 < State.reset.cfg.lGS := by decide

/-- A state of an invocation that meets the invariant: the reset block with a tick pending and an update
pending. -/
def ticked : State := { State.reset with tickPending := true, pendingUpdate := true }

theorem witness_Inv : State.reset.Inv ∧ ticked.Inv := ⟨by decide, by decide⟩
theorem witness_StepKeepsInvariant : ∃ t, step { ticked with turns := [.sequencer] } = .next t ∧ t.phase = .rBlank :=
  ⟨_, rfl, by decide⟩
theorem witness_ProgramSelectRisesOnlyAtReset :
    ∃ t, step { State.reset with lines := { Lines.reset with vprg := false }, turns := [.reset] } = .next t ∧
      t.lines.vprg = true := ⟨_, rfl, by decide⟩
theorem witness_ProgramSelectFalls :
    ¬ ({ inPhase .rVprg with turns := [.sequencer] } : State).resetNext ∧
      ∃ t, step { inPhase .rVprg with turns := [.sequencer] } = .next t ∧ t.lines.vprg = false ∧
        t.trace = [{ line := .vprg, level := false }] := ⟨by decide, _, rfl, by decide⟩
theorem witness_CommitIsNeverLost :
    ∃ t, step { inPhase .rTest with pendingUpdate := true, turns := [.sequencer] } = .next t ∧
      t.pendingUpdate = false := ⟨_, rfl, by decide⟩
theorem witness_RecordsAreNeverRemoved :
    ¬ ({ ticked with turns := [.sequencer] } : State).resetNext ∧
      ∃ t, step { ticked with turns := [.sequencer], markers := { Markers.empty with m1 := true } } = .next t :=
  ⟨by decide, _, rfl⟩
theorem witness_ArraysChangeOnlyBySetters_dc :
    ∃ t, step (State.reset.withFetchWord 32 0x10000000) = .next t ∧ t.dc[0]? ≠ State.reset.dc[0]? :=
  ⟨_, rfl, by decide⟩
theorem witness_ArraysChangeOnlyBySetters_gs :
    ∃ t, step (State.reset.withFetchWord 32 0x200FFFFF) = .next t ∧ t.gs[15]? ≠ State.reset.gs[15]? :=
  ⟨_, rfl, by decide⟩
theorem witness_ProgrammingIsNotPreempted :
    (inPhase .pUnblank).phase.isP = true ∧ ∃ t, step { inPhase .pUnblank with turns := [.sequencer] } = .next t :=
  ⟨by decide, _, rfl⟩
/-- A TICK taken in a P phase: the last clause's second case. -/
theorem witness_ProgrammingIsNotPreempted_tick :
    State.takes { inPhase (.pClkH 0) with tickPort := [0x50000000] } .tick 0x50000000 ∧
      ∃ t, step { inPhase (.pClkH 0) with turns := [.tick], tickPort := [0x50000000] } = .next t ∧
        t.tickPending = true ∧ t.markers.m2 = true ∧ t.phase = .pClkH 0 := ⟨by decide, _, rfl, by decide⟩
/-- The two ways an invocation ends. -/
theorem witness_RefreshStartsOnlyFromIdle_return :
    (∃ t, step { inPhase .rTest with turns := [.sequencer] } = .next t ∧ t.phase.isRefresh = false) ∧
      ∃ t, step { inPhase .sDone with turns := [.sequencer] } = .next t ∧ t.phase.isRefresh = false :=
  ⟨⟨_, rfl, by decide⟩, _, rfl, by decide⟩
theorem witness_RefreshStartsOnlyFromIdle :
    ticked.phase.isRefresh = false ∧
      ∃ t, step { ticked with turns := [.sequencer] } = .next t ∧ t.phase.isRefresh = true ∧
        t.phase = .rBlank ∧ t.tickPending = false :=
  ⟨by decide, _, rfl, by decide⟩
theorem witness_GhostStateSteersNothing :
    State.withoutGhost { ticked with turns := [.sequencer], progIssued := true } =
        State.withoutGhost { ticked with turns := [.sequencer] } ∧
      ∃ t, step { ticked with turns := [.sequencer], progIssued := true } = .next t := ⟨by decide, _, rfl⟩
/-- The block with no chip at the latch of its PROGRAM: the step's event is on XLAT. -/
def latching : State := { State.resetFor 0 with progIssued := true, phase := .pXlatH, turns := [.sequencer] }

theorem witness_LatchOnlyWhileBlanked :
    latching.Inv ∧ latching.LatchesBracketed ∧ latching.EventsAreEdges ∧
      ∃ t, step latching = .next t ∧ t.markers.m3 = false ∧ t.markers.m4 = false ∧
        t.trace = [{ line := .xlat, level := true }] := ⟨by decide, by decide, by decide, _, rfl, by decide⟩
/-- A run from reset with a latch in it: no chip, PROGRAM, then two micro-steps. -/
theorem witness_RunsLatchOnlyWhileBlanked :
    ∃ t, Host.Core.run Sys2Proof.core 2 (State.resetWith 0 [0x40000000] [] [.host, .sequencer] 0) = .next t ∧
      t.markers.has .m3 = false ∧ t.markers.has .m4 = false ∧ t.trace = [{ line := .xlat, level := true }] :=
  ⟨_, rfl, by decide⟩
theorem witness_ProgramShiftsTheCorrectionArray :
    State.reset.ArraysFit ∧ State.reset.phase = .idle ∧ State.reset.lines.sclk = false ∧
      State.reset.TraceMatchesLines ∧ State.reset.lines = Lines.reset ∧ State.reset.trace = [] := by decide
theorem witness_InvocationShapes :
    ticked.phase = .idle ∧ ticked.tickPending = true ∧ ticked.pendingUpdate = true := by decide
/-- `EveryStartedSequenceEnds`: a P phase, a refresh phase, and a refresh start, each with the invariant. -/
theorem witness_EveryStartedSequenceEnds :
    latching.Inv ∧ latching.phase.isP = true ∧
      (∃ t, microStep ticked = .next t ∧ t.Inv ∧ t.phase.isRefresh = true) ∧
        ticked.Inv ∧ ticked.phase = .idle ∧ ticked.tickPending = true :=
  ⟨by decide, by decide, ⟨_, rfl, by decide⟩, by decide, by decide, by decide⟩
theorem witness_ClockOutShiftsTheBrightnessArray :
    ({ inPhase .rTest with pendingUpdate := true } : State).ArraysFit := by decide
theorem witness_ZeroChipsShiftNothing :
    (State.resetFor 0).cfg.nChips.val = 0 ∧ (State.resetFor 0).phase = .idle ∧
      ({ State.resetFor 0 with phase := .rTest, pendingUpdate := true } : State).phase = .rTest := by decide
theorem witness_BlankForcesOutputsOff :
    State.reset.TraceMatchesLines ∧ State.reset.lines.blank = true ∧
      State.TraceMatchesLines
        { State.reset with
          trace := [{ line := .blank, level := false }], lines := { Lines.reset with blank := false } } := by decide
theorem witness_FrameWritesEveryChannelThenCommits :
    (List.replicate 16 65535).length = Config.nCh { nChips := 1 } ∧ (∀ v ∈ List.replicate 16 65535, v < 65536) ∧
      [0].length ≠ Config.nCh { nChips := 1 } := by decide

end Sys2Proof.Machine.Tests
end

section
/-! The two arrays of the block at reset, for every number of chips (spec/10_state.md R16, R18). -/

namespace Sys2Proof.Machine

@[simp] theorem State.resetFor_dc (n : Fin 257) :
    (State.resetFor n).dc = List.replicate (16 * n.val) 63 := rfl

@[simp] theorem State.resetFor_gs (n : Fin 257) :
    (State.resetFor n).gs = List.replicate (16 * n.val) 0 := rfl

/-- Settles O8: at reset each array is one value repeated over the `16 * n` channels, so a read answers that
value inside the range and nothing outside it. -/
theorem resetArrayDefaults : Obligations.ResetArrayDefaults := by
  intro n c
  constructor
  · rw [State.resetFor_dc, List.getElem?_replicate]
  · rw [State.resetFor_gs, List.getElem?_replicate]

end Sys2Proof.Machine
end

section
/-! Side effects and idempotency of the array writes, the reads and COMMIT (spec/20_memory.md R44). -/

namespace Sys2Proof.Machine

/-! ### The named updates, done twice -/

@[simp] theorem Markers.addIf_addIf_self (ms : Markers) (b : Bool) (m : Marker) :
    (ms.addIf b m).addIf b m = ms.addIf b m := by
  cases m <;> simp [Markers.addIf]

@[simp] theorem State.markIf_markIf_self (s : State) (b : Bool) (m : Marker) :
    (s.markIf b m).markIf b m = s.markIf b m := by
  simp [State.markIf]

@[simp] theorem State.writeDc_writeDc_self (s : State) (c : Nat) (v : Dot) :
    (s.writeDc c v).writeDc c v = s.writeDc c v := by
  by_cases hc : c < s.cfg.nCh <;> simp [State.writeDc, hc]

@[simp] theorem State.writeGs_writeGs_self (s : State) (c : Nat) (v : Grey) :
    (s.writeGs c v).writeGs c v = s.writeGs c v := by
  by_cases hc : c < s.cfg.nCh <;> simp [State.writeGs, hc]

/-! ### Idempotency -/

/-- The condition of M5 does not look at the array, so the marker and the write commute and each is done
twice on its own. -/
theorem effect_setdc_idem (c v : Nat) (s : State) :
    effect (.setdc c v) (effect (.setdc c v) s) = effect (.setdc c v) s :=
  calc (s.markSetdc.writeDc c (dotOf v)).markSetdc.writeDc c (dotOf v)
    _ = (s.markSetdc.markSetdc.writeDc c (dotOf v)).writeDc c (dotOf v) := rfl
    _ = s.markSetdc.markSetdc.writeDc c (dotOf v) := State.writeDc_writeDc_self ..
    _ = s.markSetdc.writeDc c (dotOf v) :=
      congrArg (State.writeDc · c (dotOf v)) (s.markIf_markIf_self s.progIssued .m5)

/-- The condition of M9 looks at `PendingUpdate` and the phase, which a SETGS leaves as they are, so the marker
and the write commute here too. -/
theorem effect_setgs_idem (c v : Nat) (s : State) :
    effect (.setgs c v) (effect (.setgs c v) s) = effect (.setgs c v) s :=
  calc (((s.markSetgs c).writeGs c (greyOf v)).markSetgs c).writeGs c (greyOf v)
    _ = (((s.markSetgs c).markSetgs c).writeGs c (greyOf v)).writeGs c (greyOf v) := rfl
    _ = ((s.markSetgs c).markSetgs c).writeGs c (greyOf v) := State.writeGs_writeGs_self ..
    _ = (s.markSetgs c).writeGs c (greyOf v) :=
      congrArg (State.writeGs · c (greyOf v)) (s.markIf_markIf_self _ .m9)

theorem effect_commit_idem (s : State) : effect .commit (effect .commit s) = effect .commit s := rfl

/-- A command whose effect is idempotent has an idempotent step, whether it is accepted or held. -/
theorem exec_idem {i : Instr} {s t : State} (hi : effect i (effect i s) = effect i s)
    (h : exec i s = .next t) : exec i t = .next t := by
  obtain ⟨-, rfl⟩ | ⟨-, rfl⟩ := exec_next h
  · cases ha : accepts i (effect i s) with
    | true => rw [exec_of_accepts ha, hi]
    | false => rw [exec_eq, whenAccepted_of_held _ ha]
  · exact h

/-! ### What a setter and a micro-step leave unchanged -/

theorem exec_setdc_frame {c v : Nat} {s t : State} (h : exec (.setdc c v) s = .next t) :
    { t with dc := s.dc, markers := s.markers } = s := by
  obtain ⟨-, rfl⟩ | ⟨-, rfl⟩ := exec_next h <;> rfl

theorem exec_setgs_frame {c v : Nat} {s t : State} (h : exec (.setgs c v) s = .next t) :
    { t with gs := s.gs, markers := s.markers } = s := by
  obtain ⟨-, rfl⟩ | ⟨-, rfl⟩ := exec_next h <;> rfl

/-- A read by the sequencer drives its bit on SIN and moves the phase. -/
theorem microStep_read {k : Nat} {s t : State} (hp : s.phase = .pData k ∨ s.phase = .sData k)
    (h : microStep s = .next t) : ∃ b p, t = (s.drive .sin b).goto p := by
  obtain ⟨e, -⟩ | ⟨e, -⟩ | ⟨e, -⟩ | ⟨e, -⟩ | ⟨e, -⟩ | ⟨e, -⟩ | ⟨x, b, p, rfl, hd⟩ := microStep_cases h
  iterate 6 · simp [e] at hp
  · have hx : x = .sin := by obtain hp | hp := hp <;> simp [hp] at hd <;> exact hd.1
    exact ⟨b, p, by rw [hx]⟩

theorem microStep_arrays {s t : State} (h : microStep s = .next t) : t.dc = s.dc ∧ t.gs = s.gs := by
  obtain ⟨-, -, rfl⟩ | ⟨-, -, rfl⟩ | ⟨-, -, rfl⟩ | ⟨-, -, rfl⟩ | ⟨-, rfl⟩ | ⟨-, rfl⟩ | ⟨x, b, p, rfl, -⟩ :=
    microStep_cases h <;> exact ⟨rfl, rfl⟩

/-- Settles O20: each of the three effects is idempotent, which carries over to the command steps; the frames
are those of the setters' effects, of a driven bit, and of every kind of micro-step. -/
theorem settersAndCommitAreIdempotent : Obligations.SettersAndCommitAreIdempotent := by
  refine ⟨?idem, fun _ _ _ _ => exec_setdc_frame, fun _ _ _ _ => exec_setgs_frame, ?read,
    fun _ _ => microStep_arrays⟩
  case idem =>
    rintro i s t (⟨c, v, rfl | rfl⟩ | rfl)
    · exact exec_idem (effect_setdc_idem c v s)
    · exact exec_idem (effect_setgs_idem c v s)
    · exact exec_idem (effect_commit_idem s)
  case read =>
    intro k s t hp h
    obtain ⟨b, p, rfl⟩ := microStep_read hp h
    rfl

end Sys2Proof.Machine
end

section
/-! The clamps of the setters and the elements they store (spec/41_driver_state_setters.md R73, R75). -/

namespace Sys2Proof.Machine

theorem clampDc_le (v : Nat) : clampDc v ≤ 63 := clampDc_eq_min v ▸ Nat.min_le_right v 63

theorem clampGs_le (v : Nat) : clampGs v ≤ 4095 := clampGs_eq_min v ▸ Nat.min_le_right v 4095

theorem clampDc_of_le {v : Nat} (h : v ≤ 63) : clampDc v = v := by
  rw [clampDc_eq_min, Nat.min_eq_left h]

theorem clampGs_of_le {v : Nat} (h : v ≤ 4095) : clampGs v = v := by
  rw [clampGs_eq_min, Nat.min_eq_left h]

/-- A clamped value fits the six bits of its element, so storing it loses nothing. -/
theorem dotOf_toNat (v : Nat) : (dotOf v).toNat = clampDc v := by
  rw [dotOf, BitVec.toNat_ofNat, Nat.mod_eq_of_lt (Nat.lt_succ_of_le (clampDc_le v))]

/-- A clamped value fits the twelve bits of its element, so storing it loses nothing. -/
theorem greyOf_toNat (v : Nat) : (greyOf v).toNat = clampGs v := by
  rw [greyOf, BitVec.toNat_ofNat, Nat.mod_eq_of_lt (Nat.lt_succ_of_le (clampGs_le v))]

/-- Settles O19: each clamp is the minimum with the largest value of its element; its range, the identity below
the limit and the stored number follow from that. -/
theorem clampsStayInRange : Obligations.ClampsStayInRange := fun v =>
  ⟨rfl, clampDc_eq_min v, clampDc_le v, clampDc_of_le, (dotOf_toNat v).trans (clampDc_eq_min v),
   rfl, clampGs_eq_min v, clampGs_le v, clampGs_of_le, (greyOf_toNat v).trans (clampGs_eq_min v)⟩

end Sys2Proof.Machine
end

section
/-! The micro-steps of a programming bit (spec/42_programming_sequencer.md R81, R82, R83). -/

namespace Sys2Proof.Machine

/-- Six bits to a channel, so each position of the programming shift lies in an element of an array that has
one for each channel (spec/42_programming_sequencer.md R80). -/
theorem State.ArraysFit.exists_dcBit {s : State} {k : Nat} (ha : s.ArraysFit) (hk : k < s.cfg.lDC) :
    ∃ b, dcBit s.dc k = some b := by
  obtain ⟨hdc, -⟩ := ha
  rw [Config.lDC_eq, ← hdc] at hk
  exact ⟨_, dcBit_of_lt (Nat.div_lt_of_lt_mul hk)⟩

theorem microStep_of_pData {s : State} {k : Nat} {b : Level} (hp : s.phase = .pData k)
    (hb : dcBit s.dc k = some b) : microStep s = .next ((s.drive .sin b).goto (.pClkH k)) := by
  simp only [microStep, hp, stepPData, hb]

theorem microStep_of_pClkH {s : State} {k : Nat} (hp : s.phase = .pClkH k) :
    microStep s = .next ((s.drive .sclk true).goto (.pClkL k)) := by
  simp only [microStep, hp, stepPClkH]

theorem microStep_of_pClkL {s : State} {k : Nat} (hp : s.phase = .pClkL k) :
    microStep s =
      .next ((s.drive .sclk false).goto (if k + 1 < s.cfg.lDC then .pData (k + 1) else .pXlatH)) := by
  simp only [microStep, hp, stepPClkL]

/-- Settles O24: the phase names the micro-step; only P_DATA could fail, and its bit exists because the array
has an element for each channel. -/
theorem programmingMicroSteps : Obligations.ProgrammingMicroSteps := by
  intro s k ha hk
  refine ⟨fun hp => ?_, microStep_of_pClkH, microStep_of_pClkL⟩
  obtain ⟨b, hb⟩ := ha.exists_dcBit hk
  exact ⟨b, hb, microStep_of_pData hp hb⟩

end Sys2Proof.Machine
end

section
/-! The refresh micro-steps that drive BLANK, the latch pulse and the clock's fall
(spec/43_refresh_cycle_engine.md R94, R96, R97, R98, R100, R101). -/

namespace Sys2Proof.Machine

/-! ### What the phase names -/

theorem microStep_of_rBlank {s : State} (hp : s.phase = .rBlank) :
    microStep s = .next ((s.drive .blank true).goto s.afterBlank) := by
  simp only [microStep, hp, stepRBlank]

theorem microStep_of_rXlatH {s : State} (hp : s.phase = .rXlatH) :
    microStep s = .next ((s.drive .xlat true).goto .rXlatL) := by
  simp only [microStep, hp, stepRXlatH]

theorem microStep_of_rXlatL {s : State} (hp : s.phase = .rXlatL) :
    microStep s = .next ((s.drive .xlat false).goto .rClrLatch) := by
  simp only [microStep, hp, stepRXlatL]

theorem microStep_of_rClrLatch {s : State} (hp : s.phase = .rClrLatch) :
    microStep s = .next (State.goto { s with pendingLatch := false } s.afterLatch) := by
  simp only [microStep, hp, stepRClrLatch]

theorem microStep_of_rXclkL {s : State} (hp : s.phase = .rXclkL) :
    microStep s = .next ((s.drive .sclk false).goto .rUnblank) := by
  simp only [microStep, hp, stepRXclkL]

theorem microStep_of_rUnblank {s : State} (hp : s.phase = .rUnblank) :
    microStep s = .next ((s.drive .blank false).goto .rTest) := by
  simp only [microStep, hp, stepRUnblank]

/-! ### Which micro-steps go to the latch -/

@[simp] theorem State.afterLatch_ne_rXlatH (s : State) : s.afterLatch ≠ .rXlatH := by
  unfold State.afterLatch
  split <;> simp

@[simp] theorem State.afterVprg_eq_rXlatH (s : State) :
    s.afterVprg = .rXlatH ↔ s.pendingLatch = true := by
  cases hl : s.pendingLatch <;> simp [State.afterVprg, hl]

@[simp] theorem State.afterBlank_eq_rXlatH (s : State) :
    s.afterBlank = .rXlatH ↔ s.first = false ∧ s.pendingLatch = true := by
  cases hf : s.first <;> simp [State.afterBlank, hf]

@[simp] theorem clockOutEntry_ne_rXlatH (g : Config) : clockOutEntry g ≠ .rXlatH := by
  unfold clockOutEntry
  split <;> simp

/-- The latch pulse begins only with `PendingLatch` = 1: of the micro-steps only R_BLANK and R_VPRG can go to
R_XLATH, and each chooses it by that flag, which driving a line keeps. -/
theorem pendingLatch_of_microStep_to_rXlatH {s t : State} (h : microStep s = .next t)
    (ht : t.phase = .rXlatH) : t.pendingLatch = true := by
  obtain ⟨hp, -, rfl⟩ | ⟨-, -, rfl⟩ | ⟨-, -, rfl⟩ | ⟨-, -, rfl⟩ | ⟨-, rfl⟩ | ⟨-, rfl⟩ |
    ⟨x, b, p, rfl, hd⟩ := microStep_cases h
  · simp [hp] at ht
  iterate 5 · simp at ht
  · rw [State.goto_phase] at ht
    have hgo : p = s.afterBlank ∨ p = s.afterVprg := by grind
    obtain rfl | rfl := hgo
    · exact (s.afterBlank_eq_rXlatH.mp ht).2
    · exact s.afterVprg_eq_rXlatH.mp ht

/-- Settles O26: the phase names each micro-step, and the latch is entered only where `PendingLatch` is 1. -/
theorem refreshMicroSteps : Obligations.RefreshMicroSteps :=
  ⟨fun _ => ⟨microStep_of_rBlank, microStep_of_rXlatH, microStep_of_rXlatL, microStep_of_rClrLatch,
    microStep_of_rXclkL, microStep_of_rUnblank⟩, fun _ _ => pendingLatch_of_microStep_to_rXlatH⟩

end Sys2Proof.Machine
end

section
/-! The micro-steps of a brightness bit and the end of the shift
(spec/44_serial_clock_out.md R108, R109, R110, R111). -/

namespace Sys2Proof.Machine

/-- Twelve bits to a channel, so each position of the brightness shift lies in an element of an array that has
one for each channel (spec/44_serial_clock_out.md R107). -/
theorem State.ArraysFit.exists_gsBit {s : State} {k : Nat} (ha : s.ArraysFit) (hk : k < s.cfg.lGS) :
    ∃ b, gsBit s.gs k = some b := by
  obtain ⟨-, hgs⟩ := ha
  rw [Config.lGS_eq, ← hgs] at hk
  exact ⟨_, gsBit_of_lt (Nat.div_lt_of_lt_mul hk)⟩

theorem microStep_of_sData {s : State} {k : Nat} {b : Level} (hp : s.phase = .sData k)
    (hb : gsBit s.gs k = some b) : microStep s = .next ((s.drive .sin b).goto (.sClkH k)) := by
  simp only [microStep, hp, stepSData, hb]

theorem microStep_of_sClkH {s : State} {k : Nat} (hp : s.phase = .sClkH k) :
    microStep s = .next ((s.drive .sclk true).goto (.sClkL k)) := by
  simp only [microStep, hp, stepSClkH]

theorem microStep_of_sClkL {s : State} {k : Nat} (hp : s.phase = .sClkL k) :
    microStep s =
      .next ((s.drive .sclk false).goto (if k + 1 < s.cfg.lGS then .sData (k + 1) else .sDone)) := by
  simp only [microStep, hp, stepSClkL]

theorem microStep_of_sDone {s : State} (hp : s.phase = .sDone) :
    microStep s = .next (endInvocation s true) := by
  simp only [microStep, hp, stepSDone]

/-- Settles O29: the phase names the micro-step; only S_DATA could fail, and its bit exists because the array
has an element for each channel. -/
theorem clockOutMicroSteps : Obligations.ClockOutMicroSteps := by
  intro s k ha
  refine ⟨fun hk hp => ?_, fun _ => microStep_of_sClkH, fun _ => microStep_of_sClkL, microStep_of_sDone⟩
  obtain ⟨b, hb⟩ := ha.exists_gsBit hk
  exact ⟨b, hb, microStep_of_sData hp hb⟩

end Sys2Proof.Machine
end

section
/-! The decoder and the encoder undo each other, and the opcode table is what both follow
(spec/30_encoding.md). -/

namespace Sys2Proof

/-! ### The decoder on a word given by its fields -/

/-- The decoder follows the `op` field: the decoded command has it as its operation value
(spec/30_encoding.md R56, R62). -/
theorem opcode_decode (w : Word) : (decode w).opcode = opField w := by
  have hlt := (opField w).isLt
  apply BitVec.eq_of_toNat_eq
  unfold decode
  split
  case h_16 =>
    simp only [imp_false] at *
    rw [show (opField w).toNat = 15 by omega]; rfl
  all_goals simp [Instr.opcode, *]

/-- The operands of a decoded command are the zero-extended fields (spec/30_encoding.md R57, R58). -/
theorem decode_of_hasOperands {w : Word} (h : (decode w).hasOperands = true) :
    decode w = .setdc (chanField w).toNat (valueField w).toNat ∨
      decode w = .setgs (chanField w).toNat (valueField w).toNat := by
  unfold decode at h ⊢
  split at h <;> simp_all [Instr.hasOperands]

/-- A command without operands has the word of its operation value (spec/30_encoding.md R59). -/
theorem encode_of_no_operands {i : Instr} (h : i.hasOperands = false) : encode i = cmd32 i.opcode 0 0 := by
  cases i with
  | setdc | setgs => simp [Instr.hasOperands] at h
  | _ => rfl

/-- Settles O1: the decoder reads the operation value back from the `op` field, and an operand that fits its
field comes back from it unchanged. -/
theorem decodeInvertsEncode : Obligations.DecodeInvertsEncode := by
  intro i hi
  cases i with
  | setdc c v | setgs c v =>
    simp only [Instr.wf, chanFits, valueFits, Bool.and_eq_true, decide_eq_true_eq] at hi
    simp [decode, encode, Instr.opcode, Nat.mod_eq_of_lt hi.1, Nat.mod_eq_of_lt hi.2]
  | _ => simp [decode, encode, Instr.opcode]

/-- Settles O2: a command with operands is put together from the three fields of its word, any other from
the `op` field alone. -/
theorem encodeInvertsDecodeUpToIgnoredFields : Obligations.EncodeInvertsDecodeUpToIgnoredFields := by
  intro w
  split
  · next h =>
    have fields : cmd32 (decode w).opcode (chanField w) (valueField w) = w := by
      rw [opcode_decode, cmd32_fields]
    obtain e | e := decode_of_hasOperands h <;> simpa [e, encode] using fields
  · next h => rw [encode_of_no_operands (by simpa using h), opcode_decode]

/-! ### The opcode table -/

theorem wf_decode (w : Word) : (decode w).wf = true := by
  cases h : (decode w).hasOperands with
  | true =>
    have hc := (chanField w).isLt
    have hv := (valueField w).isLt
    obtain e | e := decode_of_hasOperands h <;> rw [e] <;>
      simp only [Instr.wf, chanFits, valueFits, Bool.and_eq_true, decide_eq_true_eq] <;> exact ⟨hc, hv⟩
  | false => revert h; cases decode w <;> simp [Instr.hasOperands, Instr.wf]

theorem cmd32_and (op op' : BitVec 4) (c c' : BitVec 12) (v v' : BitVec 16) :
    cmd32 op c v &&& cmd32 op' c' v' = cmd32 (op &&& op') (c &&& c') (v &&& v') :=
  BitVec.and_append.trans (congrArg (· ++ (v &&& v')) BitVec.and_append)

/-- The bits that the table fixes are those of the `op` field. -/
theorem and_opMask (w : Word) : w &&& 0xF0000000 = cmd32 (opField w) 0 0 :=
  calc w &&& 0xF0000000
    _ = cmd32 (opField w) (chanField w) (valueField w) &&& cmd32 0xF 0 0 := by rw [cmd32_fields]; rfl
    _ = cmd32 (opField w &&& 0xF) 0 0 := by rw [cmd32_and]; simp
    _ = cmd32 (opField w) 0 0 := by rw [show (0xF : BitVec 4) = BitVec.allOnes 4 from rfl, BitVec.and_allOnes]

theorem opcodeTable_mask : ∀ r ∈ opcodeTable, r.mask = 0xF0000000 := by decide

theorem filter_opcodeTable (i : Instr) :
    opcodeTable.filter (fun r => cmd32 i.opcode 0 0 == r.pattern) =
      [⟨i.mnemonic, cmd32 i.opcode 0 0, 0xF0000000⟩] := by
  cases i <;> simp only [Instr.opcode, Instr.mnemonic] <;> decide

/-- Settles O3: the table's masks keep exactly the `op` field, and each operation value has one row. -/
theorem everyWordIsOfOneTableRow : Obligations.EveryWordIsOfOneTableRow := by
  intro w
  refine ⟨wf_decode w, ⟨(decode w).mnemonic, cmd32 (opField w) 0 0, 0xF0000000⟩, ?_, rfl, rfl, opcode_decode w⟩
  have covers : ∀ r ∈ opcodeTable, r.covers w = (cmd32 (opField w) 0 0 == r.pattern) := fun r hr => by
    rw [OpcodeRow.covers, opcodeTable_mask r hr, and_opMask]
  rw [List.filter_congr covers, ← opcode_decode, filter_opcodeTable]

/-- Settles O4: each of the eleven words is evaluated. -/
theorem specWordsDecode : Obligations.SpecWordsDecode := by
  unfold Obligations.SpecWordsDecode
  decide

end Sys2Proof

namespace Sys2Proof.Machine

/-! ### The pseudo-instruction `frame` -/

theorem allItems_map_some (xs : List TestItem) : allItems (xs.map some) = some xs := by
  induction xs with
  | nil => rfl
  | cons x xs ih => simp [allItems, ih]

theorem allItems_eq_none {xs : List (Option TestItem)} (h : none ∈ xs) : allItems xs = none := by
  induction xs with
  | nil => simp at h
  | cons x xs ih =>
    cases x with
    | none => rfl
    | some x => simp [allItems, ih (by simpa using h)]

/-- A `setgs` of a channel that a word can name is assembled when its value fits, and refused otherwise
(spec/30_encoding.md R65). -/
theorem commandItem_setgs {c : Nat} (hc : c < 4096) (v : Nat) :
    commandItem (some .host) (.setgs c v) =
      if v < 65536 then some (.word .host (encode (.setgs c v))) else none := by
  by_cases hv : v < 65536 <;>
    simp [commandItem, assembleCommand, encodeIfFits, Instr.wf, chanFits, valueFits, portOf, hc, hv]

/-- The items of values that fit, from a channel on: one `setgs` for each, in order. -/
theorem frameFrom_of_fits {c : Nat} {vs : List Nat} (hc : c + vs.length ≤ 4096) (hv : ∀ v ∈ vs, v < 65536) :
    frameFrom c vs =
      ((vs.zipIdx c).map fun p => TestItem.word .host (encode (.setgs p.2 p.1))).map some := by
  induction vs generalizing c with
  | nil => rfl
  | cons v vs ih =>
    simp only [List.length_cons] at hc
    simp only [List.forall_mem_cons] at hv
    simp [frameFrom, commandItem_setgs (show c < 4096 by omega), hv.1,
      ih (show c + 1 + vs.length ≤ 4096 by omega) hv.2]

theorem none_mem_frameFrom {c : Nat} {vs : List Nat} (hc : c + vs.length ≤ 4096) {v : Nat} (hm : v ∈ vs)
    (hv : 65536 ≤ v) : none ∈ frameFrom c vs := by
  induction vs generalizing c with
  | nil => simp at hm
  | cons u vs ih =>
    simp only [List.length_cons] at hc
    rw [frameFrom, commandItem_setgs (by omega)]
    obtain rfl | hm := List.mem_cons.mp hm
    · simp [Nat.not_lt.mpr hv]
    · exact List.mem_cons_of_mem _ (ih (by omega) hm)

/-- Settles O52: there are at most 4096 channels, so every channel of the frame fits its field, and a line is
refused exactly for the number of its values or for one that does not fit. -/
theorem frameWritesEveryChannelThenCommits : Obligations.FrameWritesEveryChannelThenCommits := by
  intro g vs
  have hch (hl : vs.length = g.nCh) : 0 + vs.length ≤ 4096 := by
    rw [hl, Nat.zero_add]; exact Config.nCh_le g
  constructor
  · intro hl hv
    have commit : commandItem (some .host) .commit = some (.word .host 0x30000000) := by decide
    rw [assembleLine, if_pos hl, commit, frameFrom_of_fits (hch hl) hv, ← List.map_singleton (f := some),
      ← List.map_append, allItems_map_some]
  · intro h
    rw [assembleLine]
    split
    · next hl =>
      obtain hne | ⟨v, hm, hv⟩ := h
      · exact absurd hl hne
      · exact allItems_eq_none (List.mem_append_left _ (none_mem_frameFrom (hch hl) hm hv))
    · rfl

end Sys2Proof.Machine
end

section
/-! The micro-step as a relation: one constructor for each kind, named after the phase that it is of. -/

namespace Sys2Proof.Machine

/-- `Micro s t`: a micro-step takes `s` to `t`. Each constructor is one rule of spec/42, 43 or 44; proofs about
all micro-steps are by cases on it. -/
inductive Micro (s : State) : State → Prop
  | quiescent (hp : s.phase = .idle) (ht : s.tickPending = false) : Micro s s
  | start (hp : s.phase = .idle) (ht : s.tickPending = true) : Micro s (refreshStart s)
  | pData (k : Nat) (b : Level) (hp : s.phase = .pData k) (hb : dcBit s.dc k = some b) :
      Micro s ((s.drive .sin b).goto (.pClkH k))
  | pClkH (k : Nat) (hp : s.phase = .pClkH k) : Micro s ((s.drive .sclk true).goto (.pClkL k))
  | pClkL (k : Nat) (hp : s.phase = .pClkL k) :
      Micro s ((s.drive .sclk false).goto (if k + 1 < s.cfg.lDC then .pData (k + 1) else .pXlatH))
  | pXlatH (hp : s.phase = .pXlatH) : Micro s ((s.drive .xlat true).goto .pXlatL)
  | pXlatL (hp : s.phase = .pXlatL) : Micro s ((s.drive .xlat false).goto .pUnblank)
  | pUnblank (hp : s.phase = .pUnblank) : Micro s ((s.drive .blank false).goto .idle)
  | rBlank (hp : s.phase = .rBlank) : Micro s ((s.drive .blank true).goto s.afterBlank)
  | rVprg (hp : s.phase = .rVprg) : Micro s ((s.drive .vprg false).goto s.afterVprg)
  | rXlatH (hp : s.phase = .rXlatH) : Micro s ((s.drive .xlat true).goto .rXlatL)
  | rXlatL (hp : s.phase = .rXlatL) : Micro s ((s.drive .xlat false).goto .rClrLatch)
  | rClrLatch (hp : s.phase = .rClrLatch) : Micro s (State.goto { s with pendingLatch := false } s.afterLatch)
  | rXclkH (hp : s.phase = .rXclkH) : Micro s ((s.drive .sclk true).goto .rXclkL)
  | rXclkL (hp : s.phase = .rXclkL) : Micro s ((s.drive .sclk false).goto .rUnblank)
  | rUnblank (hp : s.phase = .rUnblank) : Micro s ((s.drive .blank false).goto .rTest)
  | gateClosed (hp : s.phase = .rTest) (hu : s.pendingUpdate = false) : Micro s (endInvocation s false)
  | gateOpen (hp : s.phase = .rTest) (hu : s.pendingUpdate = true) :
      Micro s (State.goto { s with pendingUpdate := false } (clockOutEntry s.cfg))
  | sData (k : Nat) (b : Level) (hp : s.phase = .sData k) (hb : gsBit s.gs k = some b) :
      Micro s ((s.drive .sin b).goto (.sClkH k))
  | sClkH (k : Nat) (hp : s.phase = .sClkH k) : Micro s ((s.drive .sclk true).goto (.sClkL k))
  | sClkL (k : Nat) (hp : s.phase = .sClkL k) :
      Micro s ((s.drive .sclk false).goto (if k + 1 < s.cfg.lGS then .sData (k + 1) else .sDone))
  | sDone (hp : s.phase = .sDone) : Micro s (endInvocation s true)

/-- The kinds of microStep_cases, by name. -/
theorem micro_of_microStep {s t : State} (h : microStep s = .next t) : Micro s t := by
  obtain ⟨hp, ht, rfl⟩ | ⟨hp, ht, rfl⟩ | ⟨hp, hu, rfl⟩ | ⟨hp, hu, rfl⟩ | ⟨hp, rfl⟩ | ⟨hp, rfl⟩ |
    ⟨x, b, p, rfl, hd⟩ := microStep_cases h
  · exact .quiescent hp ht
  · exact .start hp ht
  · exact .gateClosed hp hu
  · exact .gateOpen hp hu
  · exact .sDone hp
  · exact .rClrLatch hp
  · obtain ⟨k, hp, rfl, hb, rfl⟩ | ⟨k, hp, rfl, rfl, rfl⟩ | ⟨k, hp, rfl, rfl, rfl⟩ | ⟨hp, rfl, rfl, rfl⟩ |
      ⟨hp, rfl, rfl, rfl⟩ | ⟨hp, rfl, rfl, rfl⟩ | ⟨hp, rfl, rfl, rfl⟩ | ⟨hp, rfl, rfl, rfl⟩ |
      ⟨hp, rfl, rfl, rfl⟩ | ⟨hp, rfl, rfl, rfl⟩ | ⟨hp, rfl, rfl, rfl⟩ | ⟨hp, rfl, rfl, rfl⟩ |
      ⟨hp, rfl, rfl, rfl⟩ | ⟨k, hp, rfl, hb, rfl⟩ | ⟨k, hp, rfl, rfl, rfl⟩ | ⟨k, hp, rfl, rfl, rfl⟩ := hd
    · exact .pData k b hp hb
    · exact .pClkH k hp
    · exact .pClkL k hp
    · exact .pXlatH hp
    · exact .pXlatL hp
    · exact .pUnblank hp
    · exact .rBlank hp
    · exact .rVprg hp
    · exact .rXlatH hp
    · exact .rXlatL hp
    · exact .rXclkH hp
    · exact .rXclkL hp
    · exact .rUnblank hp
    · exact .sData k b hp hb
    · exact .sClkH k hp
    · exact .sClkL k hp

/-! ### What a micro-step leaves unchanged -/

/-- A micro-step makes at most one drive (spec/00_scope.md R12). -/
theorem Micro.drives_at_most_one {s t : State} (h : Micro s t) :
    (t.lines = s.lines ∧ t.trace = s.trace) ∨
      ∃ x b, t.lines = s.lines.set x b ∧ t.trace = s.trace ++ [{ line := x, level := b }] := by
  cases h with
  | quiescent | start | rClrLatch | gateClosed | gateOpen | sDone => exact .inl ⟨rfl, rfl⟩
  | _ => exact .inr ⟨_, _, rfl, rfl⟩

theorem Micro.tick_flags {s t : State} (h : Micro s t) (hp : s.phase ≠ .idle) :
    t.tickPending = s.tickPending ∧ t.refreshStarted = s.refreshStarted := by
  cases h with
  | start h => exact absurd h hp
  | _ => exact ⟨rfl, rfl⟩

theorem Micro.pendingUpdate {s t : State} (h : Micro s t) (hp : s.phase ≠ .rTest) :
    t.pendingUpdate = s.pendingUpdate := by
  cases h with
  | gateOpen h => exact absurd h hp
  | _ => rfl

theorem Micro.cfg {s t : State} (h : Micro s t) : t.cfg = s.cfg := by cases h <;> rfl
theorem Micro.dc {s t : State} (h : Micro s t) : t.dc = s.dc := by cases h <;> rfl
theorem Micro.gs {s t : State} (h : Micro s t) : t.gs = s.gs := by cases h <;> rfl
theorem Micro.markers {s t : State} (h : Micro s t) : t.markers = s.markers := by cases h <;> rfl
theorem Micro.progIssued {s t : State} (h : Micro s t) : t.progIssued = s.progIssued := by cases h <;> rfl

theorem Micro.inputs {s t : State} (h : Micro s t) :
    t.hostPort = s.hostPort ∧ t.tickPort = s.tickPort ∧ t.turns = s.turns ∧ t.choices = s.choices := by
  cases h <;> exact ⟨rfl, rfl, rfl, rfl⟩

/-- Settles O30: each kind of micro-step is an update of the state that names the fields it writes. -/
theorem microStepFrame : Obligations.MicroStepFrame := fun _ _ h =>
  have m := micro_of_microStep h
  ⟨⟨m.dc, m.gs, m.markers, m.progIssued, m.cfg, m.inputs⟩, m.drives_at_most_one, m.tick_flags, m.pendingUpdate⟩

/-- Settles O22: a drive sets the level of its own line and no other. -/
theorem driveSetsOneLine : Obligations.DriveSetsOneLine := by
  intro s x y b
  refine ⟨?_, rfl, rfl⟩
  split
  · next e => rw [e, State.drive_lines, Lines.get_set_self]
  · next ne => rw [State.drive_lines, Lines.get_set_ne _ ne]

/-! ### What each phase's micro-step is -/

theorem microStep_of_idle_tick {s : State} (hp : s.phase = .idle) (ht : s.tickPending = true) :
    microStep s = .next (refreshStart s) := by
  simp only [microStep, hp, stepIdle, ht, if_true]

theorem microStep_of_idle_quiet {s : State} (hp : s.phase = .idle) (ht : s.tickPending = false) :
    microStep s = .next s := by
  simp [microStep, hp, stepIdle, ht]

theorem microStep_of_pXlatH {s : State} (hp : s.phase = .pXlatH) :
    microStep s = .next ((s.drive .xlat true).goto .pXlatL) := by
  simp only [microStep, hp, stepPXlatH]

theorem microStep_of_pXlatL {s : State} (hp : s.phase = .pXlatL) :
    microStep s = .next ((s.drive .xlat false).goto .pUnblank) := by
  simp only [microStep, hp, stepPXlatL]

theorem microStep_of_pUnblank {s : State} (hp : s.phase = .pUnblank) :
    microStep s = .next ((s.drive .blank false).goto .idle) := by
  simp only [microStep, hp, stepPUnblank]

theorem microStep_of_rVprg {s : State} (hp : s.phase = .rVprg) :
    microStep s = .next ((s.drive .vprg false).goto s.afterVprg) := by
  simp only [microStep, hp, stepRVprg]

theorem microStep_of_rXclkH {s : State} (hp : s.phase = .rXclkH) :
    microStep s = .next ((s.drive .sclk true).goto .rXclkL) := by
  simp only [microStep, hp, stepRXclkH]

theorem microStep_of_rTest_open {s : State} (hp : s.phase = .rTest) (hu : s.pendingUpdate = true) :
    microStep s = .next (State.goto { s with pendingUpdate := false } (clockOutEntry s.cfg)) := by
  simp only [microStep, hp, stepRTest, hu, if_true]

theorem microStep_of_rTest_closed {s : State} (hp : s.phase = .rTest) (hu : s.pendingUpdate = false) :
    microStep s = .next (endInvocation s false) := by
  simp [microStep, hp, stepRTest, hu]

/-! ### The first phase of each shift -/

theorem programEntry_eq (g : Config) : programEntry g = if g.nChips.val = 0 then .pXlatH else .pData 0 := by
  by_cases h : g.nChips.val = 0 <;> simp [programEntry, Config.lDC, h, Nat.pos_iff_ne_zero]

theorem clockOutEntry_eq (g : Config) : clockOutEntry g = if g.nChips.val = 0 then .sDone else .sData 0 := by
  by_cases h : g.nChips.val = 0 <;> simp [clockOutEntry, Config.lGS, h, Nat.pos_iff_ne_zero]

/-- Settles O28: the gate's two micro-steps, and the entry of the shift by the number of chips. -/
theorem gateTestsAndClears : Obligations.GateTestsAndClears := by
  intro s hp
  refine ⟨fun hu => ?_, microStep_of_rTest_closed hp⟩
  rw [microStep_of_rTest_open hp hu, clockOutEntry_eq]
  rfl

/-- Settles O27: the phase names the micro-steps, and the successor functions are as the spec writes them. -/
theorem refreshStartAndSuccessors : Obligations.RefreshStartAndSuccessors := fun _ =>
  ⟨microStep_of_idle_tick, microStep_of_idle_quiet, microStep_of_rVprg, microStep_of_rXclkH, rfl, rfl, rfl⟩

/-! ### The end of programming and the fall of VPRG -/

/-- A micro-step of the programming sequence is one drive, of a line other than program-select (spec/42 section 3). -/
theorem Micro.drive_of_isP {s t : State} (h : Micro s t) (hp : s.phase.isP = true) :
    ∃ x b p, t = (s.drive x b).goto p ∧ x ≠ .vprg := by
  cases h with
  | pData | pClkH | pClkL | pXlatH | pXlatL | pUnblank => exact ⟨_, _, _, rfl, by decide⟩
  | _ => simp_all [Phase.isP]

/-- The first refresh invocation clears program-select as its third micro-step
(spec/43_refresh_cycle_engine.md R95). -/
theorem first_invocation_clears_vprg {s : State} (hp : s.phase = .idle) (ht : s.tickPending = true)
    (hv : s.lines.vprg = true) :
    ∃ t, runSequencer 3 s = .next t ∧ t.lines.vprg = false ∧
      t.trace = s.trace ++ [{ line := .blank, level := true }, { line := .vprg, level := false }] := by
  have blank : microStep (refreshStart s) = .next (((refreshStart s).drive .blank true).goto .rVprg) := by
    rw [microStep_of_rBlank rfl]; simp [State.afterBlank, hv]
  have vprg := microStep_of_rVprg (s := ((refreshStart s).drive .blank true).goto .rVprg) rfl
  have run := ((runSequencer_succ 2 (microStep_of_idle_tick hp ht)).trans
    (runSequencer_succ 1 blank)).trans (runSequencer_succ 0 vprg)
  exact ⟨_, run, rfl, by simp⟩

/-- Settles O25: the phase names the micro-steps; a P micro-step drives a line other than VPRG; and the first
invocation is run to its R_VPRG. -/
theorem programmingEndMicroSteps : Obligations.ProgrammingEndMicroSteps := by
  refine ⟨fun _ => ⟨microStep_of_pXlatH, microStep_of_pXlatL, microStep_of_pUnblank⟩, fun _ => rfl, ?_,
    fun _ => microStep_of_rVprg, fun _ => first_invocation_clears_vprg⟩
  intro s t hp h
  obtain ⟨x, b, p, rfl, hx⟩ := (micro_of_microStep h).drive_of_isP hp
  exact ⟨Lines.get_set_ne s.lines hx.symm b, _, rfl, hx⟩

end Sys2Proof.Machine
end

section
/-! Acceptance, the effect of each command and its frame (spec/41_driver_state_setters.md, spec/42 section 1,
spec/43 section 1). -/

namespace Sys2Proof.Machine

/-! ### Acceptance -/

theorem accepts_tick (s : State) : accepts .tick s = true := rfl

theorem accepts_program (s : State) : accepts .program s = true ↔ s.phase = .idle := by
  simp [accepts]

theorem accepts_iff_not_isP {i : Instr} (ht : i ≠ .tick) (hp : i ≠ .program) (s : State) :
    accepts i s = true ↔ s.phase.isP = false := by
  cases i with
  | tick => exact absurd rfl ht
  | program => exact absurd rfl hp
  | _ => simp [accepts]

/-- Outside the P phases every command that is no TICK and no PROGRAM has its effect
(spec/41_driver_state_setters.md R71). -/
theorem exec_outside_isP {i : Instr} {s : State} (ht : i ≠ .tick) (hi : i ≠ .program)
    (hp : s.phase.isP = false) : exec i s = .next (effect i s) :=
  exec_of_accepts ((accepts_iff_not_isP ht hi s).mpr hp)

/-- Settles O11: the acceptance rule, and the wait of a command that is held. -/
theorem acceptanceFollowsPhase : Obligations.AcceptanceFollowsPhase := by
  intro i s
  refine ⟨?_, ?_, fun ht hp => accepts_iff_not_isP ht hp s, fun h => ?_⟩
  · rintro rfl; exact accepts_tick s
  · rintro rfl; exact accepts_program s
  · rw [exec_eq, whenAccepted_of_held _ h]

/-! ### Each command -/

/-- Settles O12: NOP's effect is the state itself. -/
theorem nopChangesNothing : Obligations.NopChangesNothing := fun _ =>
  exec_outside_isP (by decide) (by decide)

/-- Settles O15: COMMIT's effect writes one flag. -/
theorem commitSetsPendingUpdate : Obligations.CommitSetsPendingUpdate := fun _ =>
  exec_outside_isP (by decide) (by decide)

/-- Settles O13: SETDC's effect is its marker and one write of the clamped value. -/
theorem setdcStoresTheClampedValue : Obligations.SetdcStoresTheClampedValue := by
  rintro c v s ⟨hdc, -⟩ hp
  refine ⟨_, exec_outside_isP (by simp) (by simp) hp, fun j => ?_, fun m => ?_, rfl⟩
  · rw [← dotOf_eq]; exact writeDc_get s.markSetdc c (dotOf v) hdc j
  · simp [effect, Markers.has_addIf, Bool.and_comm]

/-- Settles O14: SETGS's effect is its marker and one write of the clamped value. -/
theorem setgsStoresTheClampedValue : Obligations.SetgsStoresTheClampedValue := by
  rintro c v s ⟨-, hgs⟩ hp
  refine ⟨_, exec_outside_isP (by simp) (by simp) hp, fun j => ?_, fun m => ?_, rfl⟩
  · rw [← greyOf_eq]; exact writeGs_get (s.markSetgs c) c (greyOf v) hgs j
  · simp [effect, Markers.has_addIf, Bool.and_comm]

/-- The commands with operation values 6 to 15 have one effect (spec/41_driver_state_setters.md R78). -/
theorem effect_of_reserved {i : Instr} (h : 6 ≤ i.opcode.toNat) (s : State) :
    i ≠ .tick ∧ i ≠ .program ∧ effect i s = s.markIf true .m8 := by
  cases i with
  | nop | setdc | setgs | commit | program | tick => simp [Instr.opcode] at h
  | _ => exact ⟨by simp, by simp, rfl⟩

/-- Settles O16: the ten reserved commands share one effect, the marker M8. -/
theorem reservedWordOnlyAddsM8 : Obligations.ReservedWordOnlyAddsM8 := by
  intro i s hi hp
  obtain ⟨ht, hpr, he⟩ := effect_of_reserved hi s
  refine ⟨s.markIf true .m8, by rw [exec_outside_isP ht hpr hp, he], fun m => ?_, rfl⟩
  simp [Markers.has_addIf]

/-- Settles O17: PROGRAM's effect is its two markers, `prog_issued` and the entry of the sequence. -/
theorem programStartsTheSequence : Obligations.ProgramStartsTheSequence := by
  intro s hp
  have entry : (effect .program s).phase = programEntry s.cfg := by rw [effect]
  refine ⟨_, exec_of_accepts ((accepts_program s).mpr hp), rfl, ?_, fun m => ?_, rfl⟩
  · rw [entry, programEntry_eq]
  · simp [effect, Markers.has_addIf, Bool.and_comm]

/-- Settles O18: TICK's effect is its four markers and `tick_pending`. -/
theorem tickRecordsOneTick : Obligations.TickRecordsOneTick := by
  intro s
  refine ⟨_, exec_of_accepts (accepts_tick s), rfl, fun m => ?_, by simp [effect]⟩
  simp [effect, Markers.has_addIf, Bool.and_comm, Phase.isRefresh]

/-! ### What the effects leave unchanged -/

section
variable (i : Instr) (s : State)

theorem effect_lines : (effect i s).lines = s.lines := by cases i <;> simp [effect]
theorem effect_trace : (effect i s).trace = s.trace := by cases i <;> simp [effect]
theorem effect_pendingLatch : (effect i s).pendingLatch = s.pendingLatch := by cases i <;> simp [effect]
theorem effect_first : (effect i s).first = s.first := by cases i <;> simp [effect]
theorem effect_refreshStarted : (effect i s).refreshStarted = s.refreshStarted := by cases i <;> simp [effect]
theorem effect_cfg : (effect i s).cfg = s.cfg := by cases i <;> simp [effect]

theorem effect_inputs : (effect i s).hostPort = s.hostPort ∧ (effect i s).tickPort = s.tickPort ∧
    (effect i s).turns = s.turns ∧ (effect i s).choices = s.choices := by
  cases i <;> simp [effect]

end

theorem effect_phase {i : Instr} (h : i ≠ .program) (s : State) : (effect i s).phase = s.phase := by
  cases i with
  | program => exact absurd rfl h
  | _ => simp [effect]

theorem effect_progIssued {i : Instr} (h : i ≠ .program) (s : State) :
    (effect i s).progIssued = s.progIssued := by
  cases i with
  | program => exact absurd rfl h
  | _ => simp [effect]

theorem effect_tickPending {i : Instr} (h : i ≠ .tick) (s : State) :
    (effect i s).tickPending = s.tickPending := by
  cases i with
  | tick => exact absurd rfl h
  | _ => simp [effect]

theorem effect_pendingUpdate {i : Instr} (h : i ≠ .commit) (s : State) :
    (effect i s).pendingUpdate = s.pendingUpdate := by
  cases i with
  | commit => exact absurd rfl h
  | _ => simp [effect]

theorem effect_dc {i : Instr} (h : i.opcode ≠ 1) (s : State) : (effect i s).dc = s.dc := by
  cases i with
  | setdc => exact absurd rfl h
  | _ => simp [effect]

theorem effect_gs {i : Instr} (h : i.opcode ≠ 2) (s : State) : (effect i s).gs = s.gs := by
  cases i with
  | setgs => exact absurd rfl h
  | _ => simp [effect]

/-- Settles O21: a command that is held changes nothing, and the effect of an accepted one names the fields it
writes. -/
theorem commandFrame : Obligations.CommandFrame := by
  intro i s t h
  obtain ⟨-, rfl⟩ | ⟨-, rfl⟩ := exec_next h
  · exact ⟨⟨effect_lines i s, effect_trace i s, effect_pendingLatch i s, effect_first i s,
      effect_refreshStarted i s, effect_cfg i s, effect_inputs i s⟩,
      fun hi => ⟨effect_phase hi s, effect_progIssued hi s⟩, fun hi => effect_tickPending hi s,
      fun hi => effect_pendingUpdate hi s, fun hi => effect_dc hi s, fun hi => effect_gs hi s⟩
  · simp

end Sys2Proof.Machine
end

section
/-! Who moves: the listed turns, and the choice where none is listed (spec/20_memory.md section 5,
spec/60_exceptions.md section 4). -/

namespace Sys2Proof.Machine

theorem step_of_turn {s : State} {u : Turn} {ts : List Turn} (h : s.turns = u :: ts) :
    step s = turnStep u { s with turns := ts } := by
  simp only [step, takeTurn, h]

theorem turnStep_turn (p : Port) (s : State) : turnStep p.turn s = portStep p s := by
  cases p <;> rfl

theorem portStep_of_empty {p : Port} {s : State} (h : s.port p = []) : portStep p s = .next s := by
  simp only [portStep, h]

theorem portStep_of_accepted {p : Port} {s : State} {w : Word} {ws : List Word} (h : s.port p = w :: ws)
    (ha : accepts (decode w) s = true) : portStep p s = exec (decode w) (s.setPort p ws) := by
  simp only [portStep, h, ha, if_true]

theorem portStep_of_held {p : Port} {s : State} {w : Word} {ws : List Word} (h : s.port p = w :: ws)
    (ha : accepts (decode w) s = false) : portStep p s = .next s := by
  simp [portStep, h, ha]

/-- Changing the turns changes no port. -/
theorem State.port_withTurns (s : State) (ts : List Turn) (p : Port) :
    State.port { s with turns := ts } p = s.port p := by
  cases p <;> rfl

/-- Settles O5: the listed turn is the port's, its head word is run or waits by the acceptance rule, and a
placed word is such a head word. -/
theorem stepRunsTheDecodedCommand : Obligations.StepRunsTheDecodedCommand := by
  constructor
  · intro p w ws ts s hts hw
    have hstep : step s = portStep p { s with turns := ts } := by rw [step_of_turn hts, turnStep_turn]
    have hw' : State.port { s with turns := ts } p = w :: ws := by rw [State.port_withTurns, hw]
    rw [hstep]
    exact ⟨portStep_of_accepted hw', portStep_of_held hw'⟩
  · intro s w ha hw
    have hplace : s.withFetchWord 32 w = s.place .host (BitVec.ofNat 32 w) := by
      rw [State.withFetchWord, Nat.mod_eq_of_lt hw]
    rw [hplace, step_of_turn rfl, turnStep_turn]
    exact portStep_of_accepted (p := .host) rfl ha

/-- Settles O9: the reset turn is resetBlock, which names the value of every field. -/
theorem resetTurnRestoresEverything : Obligations.ResetTurnRestoresEverything := by
  intro s ts hts
  exact ⟨_, step_of_turn hts, rfl, rfl, rfl, rfl, rfl, rfl, rfl, rfl, Markers.has_empty, rfl, rfl, rfl, rfl, rfl,
    rfl, rfl, rfl⟩

theorem enabledTurns_of_quiescent {s : State} (hh : s.hostPort = []) (htp : s.tickPort = [])
    (hp : s.phase = .idle) (ht : s.tickPending = false) : enabledTurns s = [] := by
  simp [enabledTurns, portEnabled, State.port, sequencerEnabled, hh, htp, hp, ht]

/-- With no turn listed: nothing is enabled and the state is kept, or the turn taken is one of those enabled. -/
theorem step_of_no_turn {s : State} (h : s.turns = []) :
    (enabledTurns s = [] ∧ step s = .next s) ∨
      ∃ t ∈ enabledTurns s, ∃ c, step s = turnStep t { s with choices := c } := by
  cases he : enabledTurns s with
  | nil => exact .inl ⟨rfl, by simp only [step, takeTurn, h, he]⟩
  | cons t us =>
    refine .inr ?_
    cases us with
    | nil =>
      have single : takeTurn s = turnStep t s := by simp only [takeTurn, h, he]
      exact ⟨t, by simp, s.choices, single⟩
    | cons u us =>
      have hlt : Config.freeRank s.choices % (us.length + 2) < (t :: u :: us).length :=
        Nat.mod_lt _ (Nat.succ_pos _)
      refine ⟨_, List.getElem_mem hlt, s.choices + 1, ?_⟩
      simp only [step, takeTurn, h, he]
      rw [List.getD_eq_getElem _ _ hlt]

/-- Settles O7: the choice is taken from the list of enabled agents, whatever the free value is. -/
theorem unlistedTurnIsAnEnabledAgents : Obligations.UnlistedTurnIsAnEnabledAgents := fun _ => step_of_no_turn

/-- Settles O6: the turns of the sequencer and of an empty port, and a block with nothing enabled. -/
theorem otherTurns : Obligations.OtherTurns := by
  refine ⟨fun ts s hts => step_of_turn hts, fun p ts s hts hw => ?_, fun s hts hh htp hp ht => ?_⟩
  · rw [step_of_turn hts, turnStep_turn, portStep_of_empty (by rw [State.port_withTurns, hw])]
  · simp only [step, takeTurn, hts, enabledTurns_of_quiescent hh htp hp ht]

end Sys2Proof.Machine
end

section
/-! The invariant, clause by clause: kept by a micro-step, by the effect of an accepted command, and met at
reset (spec/10_state.md sections 4 to 6, spec/43_refresh_cycle_engine.md section 4). -/

namespace Sys2Proof.Machine

/-! ### Micro-steps -/

section
variable {s t : State}

theorem Micro.keeps_arraysFit (h : Micro s t) (ha : s.ArraysFit) : t.ArraysFit := by
  simpa only [State.ArraysFit, h.dc, h.gs, h.cfg] using ha

theorem Micro.keeps_traceMatchesLines (h : Micro s t) (ht : s.TraceMatchesLines) : t.TraceMatchesLines := by
  rw [State.TraceMatchesLines] at ht ⊢
  obtain ⟨hl, htr⟩ | ⟨x, b, hl, htr⟩ := h.drives_at_most_one
  · rw [hl, htr, ht]
  · rw [hl, htr, levelsAfter_append, ht]; rfl

/-- A bit index stays in range: the next bit is begun only where there is one. -/
theorem Micro.keeps_fits (h : Micro s t) (hf : s.phase.fits s.cfg = true) : t.phase.fits t.cfg = true := by
  cases h with
  | pClkL | sClkL | rBlank | rVprg | rClrLatch | gateOpen =>
    grind [Phase.fits, State.afterBlank, State.afterVprg, State.afterLatch, clockOutEntry, State.goto, State.drive]
  | _ => simp_all [Phase.fits]

/-- SCLK and XLAT rise in the micro-step before a phase in which they are high, and BLANK falls only in a phase
that leaves the blanked part. -/
theorem Micro.keeps_linesFollowPhase (h : Micro s t) (hl : s.LinesFollowPhase) : t.LinesFollowPhase := by
  cases h with
  | pClkL | sClkL | rBlank | rVprg | rClrLatch | gateOpen =>
    grind [Phase.clockHigh, Phase.latchHigh, Phase.blanked, State.afterBlank, State.afterVprg, State.afterLatch,
      clockOutEntry, State.goto, State.drive, Lines.set]
  | _ => simp_all [State.LinesFollowPhase, Phase.clockHigh, Phase.latchHigh, Phase.blanked, Lines.set]

/-- `first` is sampled at the refresh start and cleared at the end of the invocation; the phases of a first
invocation are entered only where it is 1. -/
theorem Micro.keeps_firstFollowsPhase (h : Micro s t) (hf : s.FirstFollowsPhase) : t.FirstFollowsPhase := by
  cases h with
  | pClkL | sClkL | rBlank | rVprg | rClrLatch | gateOpen =>
    grind [Phase.isRefresh, Phase.isR, Phase.isS, Phase.firstOnly, Phase.beforeVprg, State.afterBlank,
      State.afterVprg, State.afterLatch, clockOutEntry, State.goto, State.drive, Lines.set]
  | _ =>
    simp_all [State.FirstFollowsPhase, Phase.isRefresh, Phase.isR, Phase.isS, Phase.firstOnly, Phase.beforeVprg,
      Lines.set]

/-- The latch phases are entered only with `PendingLatch` = 1 and left with 0. A first invocation has none: VPRG
is still 1 at its start, so by SelectFollowsRefresh no refresh came before it. -/
theorem Micro.keeps_latchFollowsPhase (h : Micro s t) (hl : s.LatchFollowsPhase) (hs : s.SelectFollowsRefresh) :
    t.LatchFollowsPhase := by
  cases h with
  | start hp ht =>
    have hnone : s.lines.vprg = true → s.pendingLatch = false := by
      intro hv
      obtain ⟨hbefore, hafter⟩ := hs
      cases hr : s.refreshStarted with
      | false => obtain ⟨-, hnone, -⟩ := hbefore hr; exact hnone
      | true => simp [hafter hr (by rw [hp]; rfl)] at hv
    exact ⟨by simp [Phase.latching], by simp [Phase.afterLatching], hnone⟩
  | pClkL | sClkL | rBlank | rVprg | rXlatH | rXlatL | rClrLatch | gateOpen =>
    grind [Phase.latching, Phase.afterLatching, State.afterBlank, State.afterVprg, State.afterLatch, clockOutEntry,
      State.goto, State.drive]
  | _ => simp_all [State.LatchFollowsPhase, Phase.latching, Phase.afterLatching]

/-- VPRG falls in R_VPRG, which the first invocation passes by `first`; without `first` it had fallen before. -/
theorem Micro.keeps_selectFollowsRefresh (h : Micro s t) (hf : s.FirstFollowsPhase)
    (hs : s.SelectFollowsRefresh) : t.SelectFollowsRefresh := by
  cases h with
  | pClkL | sClkL | rBlank | rVprg | rClrLatch | gateOpen =>
    grind [Phase.isRefresh, Phase.isR, Phase.isS, Phase.beforeVprg, State.afterBlank, State.afterVprg,
      State.afterLatch, clockOutEntry, State.goto, State.drive, Lines.set]
  | _ =>
    simp_all [State.SelectFollowsRefresh, Phase.isRefresh, Phase.isR, Phase.isS, Phase.beforeVprg, Lines.set]

/-- No micro-step enters the P phases, and BLANK falls only after a PROGRAM or in a refresh. -/
theorem Micro.keeps_programFollowsIssue (h : Micro s t) (hs : s.SelectFollowsRefresh)
    (hp : s.ProgramFollowsIssue) : t.ProgramFollowsIssue := by
  cases h with
  | pClkL | sClkL | rBlank | rVprg | rClrLatch | gateOpen =>
    grind [Phase.isP, State.afterBlank, State.afterVprg, State.afterLatch, clockOutEntry, State.goto, State.drive,
      Lines.set]
  | _ =>
    simp_all [State.ProgramFollowsIssue, State.SelectFollowsRefresh, Phase.isRefresh, Phase.isR, Phase.isS,
      Phase.isP, Lines.set]

/-- A micro-step keeps the invariant. -/
theorem Micro.keeps_inv (h : Micro s t) (hi : s.Inv) : t.Inv := by
  obtain ⟨harr, hfits, hlines, hfirst, hlatch, hsel, hprog, htr⟩ := hi
  exact ⟨h.keeps_arraysFit harr, h.keeps_fits hfits, h.keeps_linesFollowPhase hlines,
    h.keeps_firstFollowsPhase hfirst, h.keeps_latchFollowsPhase hlatch hsel,
    h.keeps_selectFollowsRefresh hfirst hsel, h.keeps_programFollowsIssue hsel hprog,
    h.keeps_traceMatchesLines htr⟩

end

/-! ### Commands -/

/-- The invariant looks at no port, turn or choice. -/
theorem State.Inv.withInputs {s : State} (hi : s.Inv) (ts : List Turn) (c : Nat) (p : Port) (ws : List Word) :
    (State.setPort { s with turns := ts, choices := c } p ws).Inv := by
  cases p <;> exact hi

theorem effect_arraysFit {s : State} (ha : s.ArraysFit) (i : Instr) : (effect i s).ArraysFit := by
  obtain ⟨hdc, hgs⟩ := ha
  rw [State.ArraysFit, effect_cfg]
  cases i with
  | setdc c v => exact ⟨(writeDc_length s.markSetdc c (dotOf v)).trans hdc, hgs⟩
  | setgs c v => exact ⟨hdc, (writeGs_length (s.markSetgs c) c (greyOf v)).trans hgs⟩
  | _ => simp [effect, hdc, hgs]

theorem programEntry_cases (g : Config) :
    programEntry g = .pXlatH ∨ (programEntry g = .pData 0 ∧ 0 < g.lDC) := by
  unfold programEntry
  split
  · next h => exact .inr ⟨rfl, h⟩
  · exact .inl rfl

/-- PROGRAM is taken in `IDLE`, where SCLK, XLAT and `first` are 0, and enters a P phase; if it adds neither M3
nor M4, nothing has ended the blanking of reset yet. -/
theorem effect_program_keeps_inv {s : State} (hi : s.Inv) (hp : s.phase = .idle) : (effect .program s).Inv := by
  obtain ⟨harr, -, hlines, hfirst, hlatch, hsel, hprog, htr⟩ := hi
  refine ⟨effect_arraysFit harr _, ?_⟩
  obtain e | ⟨e, hlt⟩ := programEntry_cases s.cfg <;>
    simp_all [effect, State.LinesFollowPhase, State.FirstFollowsPhase, State.LatchFollowsPhase,
      State.SelectFollowsRefresh, State.ProgramFollowsIssue, State.TraceMatchesLines, Markers.addIf, Phase.fits,
      Phase.clockHigh, Phase.latchHigh, Phase.blanked, Phase.isRefresh, Phase.isR, Phase.isS, Phase.isP,
      Phase.firstOnly, Phase.beforeVprg, Phase.latching, Phase.afterLatching]

/-- Only PROGRAM adds M3 or M4. -/
theorem effect_programMarkers {i : Instr} (h : i ≠ .program) (s : State) :
    (effect i s).markers.m3 = s.markers.m3 ∧ (effect i s).markers.m4 = s.markers.m4 := by
  cases i with
  | program => exact absurd rfl h
  | _ => simp [effect, Markers.addIf]

/-- The effect of an accepted command keeps the invariant. -/
theorem effect_keeps_inv {s : State} (hi : s.Inv) {i : Instr} (ha : accepts i s = true) : (effect i s).Inv := by
  by_cases h : i = .program
  · subst h
    exact effect_program_keeps_inv hi ((accepts_program s).mp ha)
  · obtain ⟨harr, hfits, hlines, hfirst, hlatch, hsel, hprog, htr⟩ := hi
    obtain ⟨hm3, hm4⟩ := effect_programMarkers h s
    refine ⟨effect_arraysFit harr i, ?_⟩
    simp only [State.LinesFollowPhase, State.FirstFollowsPhase, State.LatchFollowsPhase, State.SelectFollowsRefresh,
      State.ProgramFollowsIssue, State.TraceMatchesLines, effect_cfg, effect_phase h, effect_lines, effect_first,
      effect_pendingLatch, effect_refreshStarted, effect_progIssued h, effect_trace, hm3, hm4]
    exact ⟨hfits, hlines, hfirst, hlatch, hsel, hprog, htr⟩

/-! ### Reset -/

theorem resetWith_inv (n : Fin 257) (host tick : List Word) (turns : List Turn) (choices : Nat) :
    (State.resetWith n host tick turns choices).Inv :=
  ⟨⟨List.length_replicate, List.length_replicate⟩, rfl, ⟨rfl, rfl, nofun⟩, ⟨fun _ => rfl, nofun, nofun⟩,
    ⟨nofun, nofun, nofun⟩, ⟨fun _ => ⟨rfl, rfl, rfl⟩, nofun⟩, ⟨nofun, fun _ _ => rfl, nofun⟩, rfl⟩

/-- Settles O10: at reset the arrays have their length, the phase is `IDLE`, and no event is in the trace. -/
theorem resetMeetsInvariant : Obligations.ResetMeetsInvariant := fun n host tick turns choices =>
  ⟨resetWith_inv n host tick turns choices, fun _ _ => rfl, rfl⟩

theorem resetBlock_eq_resetWith (s : State) :
    s.resetBlock = State.resetWith s.cfg.nChips s.hostPort s.tickPort s.turns s.choices := rfl

/-! ### Every step -/

/-- What the whole step does, with the micro-step as a relation: but for the inputs it keeps the state, or it is
the effect of an accepted word, one micro-step, or reset. -/
theorem step_kinds {s t : State} (h : step s = .next t) :
    (∃ ts c, t = { s with turns := ts, choices := c }) ∨
    (∃ ts c p w ws, s.takes p w ∧ s.port p = w :: ws ∧
      t = effect (decode w) (State.setPort { s with turns := ts, choices := c } p ws)) ∨
    (∃ ts c, Micro { s with turns := ts, choices := c } t) ∨
    (s.resetNext ∧ ∃ ts c, t = State.resetBlock { s with turns := ts, choices := c }) :=
  (step_cases h).imp id (Or.imp id (Or.imp (fun ⟨ts, c, hm⟩ => ⟨ts, c, micro_of_microStep hm⟩) id))

/-- Every step keeps the invariant. -/
theorem step_keeps_inv {s t : State} (hi : s.Inv) (h : step s = .next t) : t.Inv := by
  obtain ⟨ts, c, rfl⟩ | ⟨ts, c, p, w, ws, ⟨-, ha⟩, -, rfl⟩ | ⟨ts, c, hm⟩ | ⟨-, ts, c, rfl⟩ := step_kinds h
  · exact hi
  · exact effect_keeps_inv (hi.withInputs ts c p ws) ((accepts_congr _ (by simp)).trans ha)
  · exact hm.keeps_inv hi
  · rw [resetBlock_eq_resetWith]; exact resetWith_inv ..

/-- Settles O32, by the four kinds of step. -/
theorem stepKeepsInvariant : Obligations.StepKeepsInvariant := fun _ _ => step_keeps_inv

end Sys2Proof.Machine
end

section
/-! The ghost state steers nothing: a step from a state and one from the same state less its ghost part answer
the same, but for the ghost part (spec/10_state.md R31). -/

namespace Sys2Proof.Machine

/-- An answer less the ghost part of its state. -/
def ghostless : Result → Result
  | .next s => .next s.withoutGhost
  | .fault r => .fault r
  | .refused r => .refused r

/-- Only a next state is a next state once its ghost part is dropped. -/
theorem exists_next_of_ghostless {r : Result} {x : State} (h : ghostless r = .next x) :
    ∃ u, r = .next u ∧ u.withoutGhost = x := by
  cases r with
  | next u => cases h; exact ⟨u, rfl, rfl⟩
  | fault | refused => simp [ghostless] at h

/-! ### The same hardware state, the same answer -/

theorem microStep_ghostless (s : State) : ghostless (microStep s) = ghostless (microStep s.withoutGhost) := by
  have hp : s.withoutGhost.phase = s.phase := rfl
  cases h : s.phase with
  | idle =>
    cases ht : s.tickPending with
    | true => rw [microStep_of_idle_tick h ht, microStep_of_idle_tick (s := s.withoutGhost) h ht]; rfl
    | false => rw [microStep_of_idle_quiet h ht, microStep_of_idle_quiet (s := s.withoutGhost) h ht]; rfl
  | rTest =>
    cases hu : s.pendingUpdate with
    | true => rw [microStep_of_rTest_open h hu, microStep_of_rTest_open (s := s.withoutGhost) h hu]; rfl
    | false => rw [microStep_of_rTest_closed h hu, microStep_of_rTest_closed (s := s.withoutGhost) h hu]; rfl
  | pData k =>
    have hb : dcBit s.withoutGhost.dc k = dcBit s.dc k := rfl
    simp only [microStep, hp, h, stepPData, hb]
    split <;> rfl
  | sData k =>
    have hb : gsBit s.withoutGhost.gs k = gsBit s.gs k := rfl
    simp only [microStep, hp, h, stepSData, hb]
    split <;> rfl
  | _ => simp only [microStep, hp, h]; rfl

theorem effect_withoutGhost (i : Instr) (s : State) :
    (effect i s).withoutGhost = (effect i s.withoutGhost).withoutGhost := by
  cases i with
  | setdc | setgs => rfl
  | _ => simp [effect, State.withoutGhost]

theorem exec_ghostless (i : Instr) (s : State) : ghostless (exec i s) = ghostless (exec i s.withoutGhost) := by
  have ha : accepts i s = accepts i s.withoutGhost := accepts_congr i rfl
  rw [exec_eq, exec_eq, whenAccepted, whenAccepted, ← ha]
  split
  · exact congrArg Host.Outcome.next (effect_withoutGhost i s)
  · rfl

theorem portStep_ghostless (p : Port) (s : State) :
    ghostless (portStep p s) = ghostless (portStep p s.withoutGhost) := by
  have hw : s.withoutGhost.port p = s.port p := by cases p <;> rfl
  obtain ⟨h, e⟩ | ⟨w, ws, h, ⟨ha, e⟩ | ⟨ha, e⟩⟩ := portStep_cases p s
  · rw [e, portStep_of_empty (hw.trans h)]; rfl
  · have hset : s.withoutGhost.setPort p ws = (s.setPort p ws).withoutGhost := by cases p <;> rfl
    have ha' : accepts (decode w) s.withoutGhost = true := (accepts_congr _ rfl).trans ha
    rw [e, portStep_of_accepted (hw.trans h) ha', hset, exec_ghostless]
  · have ha' : accepts (decode w) s.withoutGhost = false := (accepts_congr _ rfl).trans ha
    rw [e, portStep_of_held (hw.trans h) ha']; rfl

theorem turnStep_ghostless (u : Turn) (s : State) :
    ghostless (turnStep u s) = ghostless (turnStep u s.withoutGhost) := by
  cases u with
  | host => exact portStep_ghostless .host s
  | tick => exact portStep_ghostless .tick s
  | sequencer => exact microStep_ghostless s
  | reset => rfl

theorem enabledTurns_withoutGhost (s : State) : enabledTurns s.withoutGhost = enabledTurns s := rfl

theorem step_ghostless (s : State) : ghostless (step s) = ghostless (step s.withoutGhost) := by
  have ht : s.withoutGhost.turns = s.turns := rfl
  simp only [step, takeTurn, ht, enabledTurns_withoutGhost]
  split
  · exact turnStep_ghostless _ { s with turns := _ }
  · split
    · rfl
    · exact turnStep_ghostless _ s
    · exact turnStep_ghostless _ { s with choices := s.choices + 1 }

/-- Settles O40: both steps answer, but for the ghost part, what the common state without it answers. -/
theorem ghostStateSteersNothing : Obligations.GhostStateSteersNothing := by
  intro a b t hab ha
  refine exists_next_of_ghostless ?_
  calc ghostless (step b)
    _ = ghostless (step b.withoutGhost) := step_ghostless b
    _ = ghostless (step a.withoutGhost) := by rw [hab]
    _ = ghostless (step a) := (step_ghostless a).symm
    _ = .next t.withoutGhost := by rw [ha]; rfl

end Sys2Proof.Machine
end

section
/-! A step answers a next state, the trace stays safe, and both hold of every run from reset
(spec/60_exceptions.md section 1, spec/43_refresh_cycle_engine.md R103, spec/48_receiver_observer.md R116). -/

namespace Sys2Proof.Machine

/-! ### Every step answers a next state -/

theorem exec_total (i : Instr) (s : State) : ∃ t, exec i s = .next t := by
  cases ha : accepts i s with
  | true => exact ⟨_, exec_of_accepts ha⟩
  | false => exact ⟨s, by rw [exec_eq, whenAccepted_of_held _ ha]⟩

/-- The one fault needs an element that the invariant's lengths and ranges give. -/
theorem microStep_total {s : State} (hi : s.Inv) : ∃ t, microStep s = .next t := by
  obtain ⟨harr, hfits, -⟩ := hi
  by_contra hno
  obtain ⟨-, k, ⟨hp, hb⟩ | ⟨hp, hb⟩⟩ := microStep_not_next (not_exists.mp hno)
  · obtain ⟨b, e⟩ := harr.exists_dcBit (by simpa [hp, Phase.fits] using hfits)
    simp [hb] at e
  · obtain ⟨b, e⟩ := harr.exists_gsBit (by simpa [hp, Phase.fits] using hfits)
    simp [hb] at e

theorem portStep_total (p : Port) (s : State) : ∃ t, portStep p s = .next t := by
  obtain ⟨-, e⟩ | ⟨w, ws, -, ⟨-, e⟩ | ⟨-, e⟩⟩ := portStep_cases p s <;> rw [e]
  · exact ⟨s, rfl⟩
  · exact exec_total _ _
  · exact ⟨s, rfl⟩

/-- Settles O33: a command step always answers one, and under the invariant so does a micro-step. -/
theorem everyStepHasANextState : Obligations.EveryStepHasANextState := by
  intro s hi
  obtain e | ⟨u, ts, c, e, -⟩ := takeTurn_cases s <;> rw [step, e]
  · exact ⟨s, rfl⟩
  · cases u with
    | host => exact portStep_total .host _
    | tick => exact portStep_total .tick _
    | sequencer => exact microStep_total (s := { s with turns := ts, choices := c }) hi
    | reset => exact ⟨_, rfl⟩

/-! ### The events of a micro-step are safe -/

/-- The event of a micro-step, if it has one, is no latch with BLANK at 0: in R_XLATH BLANK is 1 by the blanked part
of an invocation, in P_XLATH by the orderly programming that neither M3 nor M4 speaks against. -/
theorem Micro.latch_blanked {s t : State} (h : Micro s t) (hi : s.Inv) (h3 : s.markers.m3 = false)
    (h4 : s.markers.m4 = false) : ∃ es, t.trace = s.trace ++ es ∧ latchesBlanked s.lines es = true := by
  obtain ⟨-, -, ⟨-, -, hblank⟩, -, -, -, ⟨-, -, hprog⟩, -⟩ := hi
  cases h with
  | quiescent | start | rClrLatch | gateClosed | gateOpen | sDone => exact ⟨[], by simp, rfl⟩
  | pXlatH hp =>
    obtain ⟨hb, -⟩ := hprog (by rw [hp]; rfl) h3 h4
    exact ⟨_, rfl, by simp [latchesBlanked, hb]⟩
  | rXlatH hp => exact ⟨_, rfl, by simp [latchesBlanked, hblank (by rw [hp]; rfl)]⟩
  | _ => exact ⟨_, rfl, by simp [latchesBlanked]⟩

/-- The event of a micro-step, if it has one on SCLK or XLAT, is an edge: those lines are high exactly in the phases
whose micro-step drives them low. -/
theorem Micro.event_is_edge {s t : State} (h : Micro s t) (hi : s.Inv) :
    ∃ es, t.trace = s.trace ++ es ∧ edgesOnly s.lines es = true := by
  obtain ⟨-, -, ⟨hsclk, hxlat, -⟩, -⟩ := hi
  cases h with
  | quiescent | start | rClrLatch | gateClosed | gateOpen | sDone => exact ⟨[], by simp, rfl⟩
  | _ =>
    refine ⟨_, rfl, ?_⟩
    simp_all [edgesOnly, isRise, isFall, Lines.get, Phase.clockHigh, Phase.latchHigh]

/-! ### The two rules on the trace are invariants -/

theorem effect_marker_mono (i : Instr) (s : State) {m : Marker} (h : s.markers.has m = true) :
    (effect i s).markers.has m = true := by
  cases i <;> simp [effect, Markers.has_addIf, h]

/-- A marker that is not set after a command was not set before it. -/
theorem effect_marker_absent (i : Instr) (s : State) (m : Marker) (h : (effect i s).markers.has m = false) :
    s.markers.has m = false := by
  by_contra hm
  simp [effect_marker_mono i s (by simpa using hm)] at h

theorem step_keeps_latchesBracketed {s t : State} (hi : s.Inv) (hl : s.LatchesBracketed) (h : step s = .next t) :
    t.LatchesBracketed := by
  intro h3 h4
  obtain ⟨ts, c, rfl⟩ | ⟨ts, c, p, w, ws, -, -, rfl⟩ | ⟨ts, c, hm⟩ | ⟨-, ts, c, rfl⟩ := step_kinds h
  · exact hl h3 h4
  · have h3' := effect_marker_absent _ _ .m3 h3
    have h4' := effect_marker_absent _ _ .m4 h4
    rw [effect_trace]
    rw [State.setPort_markers] at h3' h4'
    rw [State.setPort_trace]
    exact hl h3' h4'
  · rw [hm.markers] at h3 h4
    obtain ⟨es, htr, hes⟩ := hm.latch_blanked hi h3 h4
    obtain ⟨-, -, -, -, -, -, -, hlines⟩ := hi
    rw [htr, latchesBlanked_append, hlines, hes, Bool.and_true]
    exact hl h3 h4
  · rfl

theorem step_keeps_eventsAreEdges {s t : State} (hi : s.Inv) (he : s.EventsAreEdges) (h : step s = .next t) :
    t.EventsAreEdges := by
  obtain ⟨ts, c, rfl⟩ | ⟨ts, c, p, w, ws, -, -, rfl⟩ | ⟨ts, c, hm⟩ | ⟨-, ts, c, rfl⟩ := step_kinds h
  · exact he
  · rw [State.EventsAreEdges, effect_trace, State.setPort_trace]
    exact he
  · obtain ⟨es, htr, hes⟩ := hm.event_is_edge hi
    obtain ⟨-, -, -, -, -, -, -, hlines⟩ := hi
    rw [State.EventsAreEdges, htr, edgesOnly_append, hlines, hes, Bool.and_true]
    exact he
  · rfl

/-- Settles O41: with the invariant every micro-step's latch is blanked; a command adds no event, and reset leaves
none. -/
theorem latchOnlyWhileBlanked : Obligations.LatchOnlyWhileBlanked := fun _ _ hi hl h =>
  ⟨step_keeps_inv hi h, step_keeps_latchesBracketed hi hl h⟩

/-- Settles O42: with the invariant every micro-step's event on SCLK or XLAT is an edge; a command adds no event, and
reset leaves none. -/
theorem clockAndLatchEventsAreEdges : Obligations.ClockAndLatchEventsAreEdges := fun _ _ hi he h =>
  ⟨step_keeps_inv hi h, step_keeps_eventsAreEdges hi he h⟩

/-! ### Runs -/

/-- What holds of a state and is kept by every step holds of every state that a run from it reaches. -/
theorem run_induction {M : Host.Core} {P : M.State → Prop} (hstep : ∀ s t, P s → M.step s = .next t → P t)
    (k : Nat) {s t : M.State} (hs : P s) (h : M.run k s = .next t) : P t := by
  induction k generalizing s with
  | zero => cases h; exact hs
  | succ k ih =>
    rw [Host.Core.run] at h
    split at h
    · next u hu => exact ih (hstep s u hs hu) h
    · cases h
    · cases h

/-- Settles O53, by O41 along the run. -/
theorem runsLatchOnlyWhileBlanked : Obligations.RunsLatchOnlyWhileBlanked := by
  intro n host tick turns choices k t h
  obtain ⟨hi, hl, -⟩ := resetMeetsInvariant n host tick turns choices
  exact (run_induction (M := Sys2Proof.core) (P := fun s : State => s.Inv ∧ s.LatchesBracketed)
    (fun s t ⟨hi, hl⟩ => latchOnlyWhileBlanked s t hi hl) k ⟨hi, hl⟩ h).2

/-- Settles O54, by O42 along the run. -/
theorem runsHaveOnlyEdges : Obligations.RunsHaveOnlyEdges := by
  intro n host tick turns choices k t h
  obtain ⟨hi, -, he⟩ := resetMeetsInvariant n host tick turns choices
  exact (run_induction (M := Sys2Proof.core) (P := fun s : State => s.Inv ∧ s.EventsAreEdges)
    (fun s t ⟨hi, he⟩ => clockAndLatchEventsAreEdges s t hi he) k ⟨hi, he⟩ h).2

end Sys2Proof.Machine
end

section
/-! The bits of the shifts by channel, and a SETGS between two of them (spec/20_memory.md R38, R43). -/

namespace Sys2Proof.Machine

/-- Position `6 c + j` of the programming shift is bit `5 - j` of channel `c`. -/
theorem dcBit_of_channel (dc : List Dot) (c : Nat) {j : Nat} (hj : j < 6) :
    dcBit dc (6 * c + j) = (dc[c]?).map fun d => d.getLsbD (5 - j) := by
  rw [dcBit, show (6 * c + j) / 6 = c by omega, show (6 * c + j) % 6 = j by omega]

/-- Position `12 c + j` of the brightness shift is bit `11 - j` of channel `c`. -/
theorem gsBit_of_channel (gs : List Grey) (c : Nat) {j : Nat} (hj : j < 12) :
    gsBit gs (12 * c + j) = (gs[c]?).map fun g => g.getLsbD (11 - j) := by
  rw [gsBit, show (12 * c + j) / 12 = c by omega, show (12 * c + j) % 12 = j by omega]

/-- Settles O23: a position is a channel and a bit of it by division with remainder. -/
theorem shiftsAreMsbFirstChannelZeroFirst : Obligations.ShiftsAreMsbFirstChannelZeroFirst := by
  intro s ha
  refine ⟨fun c j hc hj => ⟨?_, dcBit_of_channel s.dc c hj⟩,
    fun c j hc hj => ⟨?_, gsBit_of_channel s.gs c hj⟩, fun _ => ha.exists_dcBit, fun _ => ha.exists_gsBit⟩
  · rw [Config.lDC_eq]; omega
  · rw [Config.lGS_eq]; omega

/-- Settles O31: the SETGS is accepted in an S phase and stores the clamped value in the element that the next
S_DATA reads. -/
theorem setgsIsSeenByTheNextBit : Obligations.SetgsIsSeenByTheNextBit := by
  rintro s k v ⟨-, hgs⟩ hk hp
  have hc : k / 12 < s.cfg.nCh := by rw [Config.lGS_eq] at hk; omega
  have hexec : exec (.setgs (k / 12) v) s = .next (effect (.setgs (k / 12) v) s) :=
    exec_outside_isP (by simp) (by simp) (by rw [hp]; rfl)
  have hbit : gsBit (effect (.setgs (k / 12) v) s).gs k = some ((greyOf v).getLsbD (11 - k % 12)) := by
    rw [gsBit, effect, writeGs_get (s.markSetgs (k / 12)) _ _ hgs, if_pos ⟨rfl, hc⟩]
    rfl
  refine ⟨_, _, hexec, ?_, microStep_of_sData hp hbit, ?_⟩
  · simp [effect, Markers.has_addIf, hc, hp, Phase.isS]
  · rw [← greyOf_eq]; rfl

end Sys2Proof.Machine
end

section
/-! Rules of the whole step: what changes program-select, the pending flags, the records, the arrays
(spec/10_state.md sections 2, 3, 6 and 8, spec/20_memory.md section 6). -/

namespace Sys2Proof.Machine

/-- The kinds of step other than reset. -/
theorem step_kinds_of_not_reset {s t : State} (h : step s = .next t) (hr : ¬ s.resetNext) :
    (∃ ts c, t = { s with turns := ts, choices := c }) ∨
    (∃ ts c p w ws, s.takes p w ∧ s.port p = w :: ws ∧
      t = effect (decode w) (State.setPort { s with turns := ts, choices := c } p ws)) ∨
    (∃ ts c, Micro { s with turns := ts, choices := c } t) := by
  obtain hk | hk | hk | ⟨hreset, -⟩ := step_kinds h
  · exact .inl hk
  · exact .inr (.inl hk)
  · exact .inr (.inr hk)
  · exact absurd hreset hr

theorem step_of_resetNext {s : State} (hr : s.resetNext) :
    ∃ ts, step s = .next (State.resetBlock { s with turns := ts }) := by
  obtain ⟨ts, hts⟩ := List.head?_eq_some_iff.mp hr
  exact ⟨ts, step_of_turn hts⟩

/-! ### Program-select -/

/-- A micro-step's events on VPRG are R_VPRG's, to 0. -/
theorem Micro.vprg_events {s t : State} (h : Micro s t) :
    ∃ es, t.trace = s.trace ++ es ∧ ∀ e ∈ es, e.line = .vprg → e.level = false ∧ s.phase = .rVprg := by
  cases h with
  | quiescent | start | rClrLatch | gateClosed | gateOpen | sDone => exact ⟨[], by simp, by simp⟩
  | rVprg hp => exact ⟨_, rfl, by simp [hp]⟩
  | _ => exact ⟨_, rfl, by simp⟩

theorem Micro.vprg_level {s t : State} (h : Micro s t) :
    t.lines.vprg = s.lines.vprg ∨ (t.lines.vprg = false ∧ s.phase = .rVprg) := by
  cases h with
  | rVprg hp => exact .inr ⟨rfl, hp⟩
  | _ => exact .inl rfl

theorem step_vprg_events {s t : State} (h : step s = .next t) (hr : ¬ s.resetNext) :
    ∃ es, t.trace = s.trace ++ es ∧ ∀ e ∈ es, e.line = .vprg → e.level = false ∧ s.phase = .rVprg := by
  obtain ⟨ts, c, rfl⟩ | ⟨ts, c, p, w, ws, -, -, rfl⟩ | ⟨ts, c, hm⟩ := step_kinds_of_not_reset h hr
  · exact ⟨[], by simp, by simp⟩
  · exact ⟨[], by simp [effect_trace], by simp⟩
  · exact hm.vprg_events

theorem step_vprg_level {s t : State} (h : step s = .next t) (hr : ¬ s.resetNext) :
    t.lines.vprg = s.lines.vprg ∨ (t.lines.vprg = false ∧ s.phase = .rVprg) := by
  obtain ⟨ts, c, rfl⟩ | ⟨ts, c, p, w, ws, -, -, rfl⟩ | ⟨ts, c, hm⟩ := step_kinds_of_not_reset h hr
  · exact .inl rfl
  · exact .inl (by simp [effect_lines])
  · exact hm.vprg_level

/-- Settles O34: of the kinds of step only a micro-step has events, and only reset raises VPRG. -/
theorem programSelectRisesOnlyAtReset : Obligations.ProgramSelectRisesOnlyAtReset := by
  intro s t h
  have reset (hr : s.resetNext) : t.trace = [] ∧ t.lines.vprg = true := by
    obtain ⟨ts, e⟩ := step_of_resetNext hr
    rw [h] at e
    cases e
    exact ⟨rfl, rfl⟩
  refine ⟨step_vprg_events h, reset, fun hs ht => ?_, fun hs ht => ?_⟩
  · by_contra hr
    obtain e | ⟨e, -⟩ := step_vprg_level h hr <;> simp_all
  · by_cases hr : s.resetNext
    · simp [(reset hr).2] at ht
    · obtain e | ⟨-, hp⟩ := step_vprg_level h hr
      · simp_all
      · exact hp

/-! ### PendingUpdate -/

theorem effect_pendingUpdate_mono (i : Instr) {s : State} (h : s.pendingUpdate = true) :
    (effect i s).pendingUpdate = true := by
  by_cases hi : i = .commit
  · rw [hi, effect]
  · rw [effect_pendingUpdate hi, h]

theorem Micro.clears_pendingUpdate {s t : State} (h : Micro s t) (hs : s.pendingUpdate = true)
    (ht : t.pendingUpdate = false) : s.phase = .rTest ∧ t.phase = clockOutEntry s.cfg := by
  cases h with
  | gateOpen hp => exact ⟨hp, rfl⟩
  | _ => simp [hs] at ht

/-- Settles O35: a command never clears the flag, and of the micro-steps only the open gate does. -/
theorem commitIsNeverLost : Obligations.CommitIsNeverLost := by
  intro s t h hs ht
  by_cases hr : s.resetNext
  · exact .inl hr
  · refine .inr ?_
    obtain ⟨ts, c, rfl⟩ | ⟨ts, c, p, w, ws, -, -, rfl⟩ | ⟨ts, c, hm⟩ := step_kinds_of_not_reset h hr
    · simp [hs] at ht
    · simp [effect_pendingUpdate_mono (decode w) (s := State.setPort { s with turns := ts, choices := c } p ws)
        (by simp [hs])] at ht
    · obtain ⟨hp, e⟩ := hm.clears_pendingUpdate hs ht
      exact ⟨hp, e.trans (clockOutEntry_eq s.cfg)⟩

/-! ### The records -/

theorem effect_progIssued_mono (i : Instr) {s : State} (h : s.progIssued = true) :
    (effect i s).progIssued = true := by
  by_cases hi : i = .program
  · rw [hi, effect]
  · rw [effect_progIssued hi, h]

theorem Micro.refreshStarted_mono {s t : State} (h : Micro s t) (hs : s.refreshStarted = true) :
    t.refreshStarted = true := by
  cases h with
  | start => rfl
  | _ => exact hs

/-- Settles O36: a command adds markers and no event, a micro-step adds events and no marker. -/
theorem recordsAreNeverRemoved : Obligations.RecordsAreNeverRemoved := by
  intro s t h hr
  obtain ⟨ts, c, rfl⟩ | ⟨ts, c, p, w, ws, -, -, rfl⟩ | ⟨ts, c, hm⟩ := step_kinds_of_not_reset h hr
  · exact ⟨fun _ => id, id, id, List.prefix_rfl⟩
  · refine ⟨fun m hs => effect_marker_mono _ _ (by simpa using hs),
      fun hs => effect_progIssued_mono _ (by simpa using hs), fun hs => ?_, ?_⟩
    · simpa [effect_refreshStarted] using hs
    · simp [effect_trace]
  · refine ⟨fun m hs => by rw [hm.markers]; exact hs, fun hs => by rw [hm.progIssued]; exact hs,
      hm.refreshStarted_mono, ?_⟩
    obtain ⟨es, htr, -⟩ := hm.vprg_events
    exact ⟨es, htr.symm⟩

/-! ### The arrays -/

/-- A command changes an element of the correction array only by a SETDC of its channel. -/
theorem effect_changes_dc {i : Instr} {s : State} {c : Nat} (h : (effect i s).dc[c]? ≠ s.dc[c]?) :
    c < s.cfg.nCh ∧ ∃ v, i = .setdc c v ∧ (effect i s).dc[c]? = some (BitVec.ofNat 6 (min v 63)) := by
  cases i with
  | setdc j v =>
    simp only [effect, State.writeDc_dc, State.markSetdc_dc, State.markSetdc_cfg, ← dotOf_eq] at h ⊢
    grind
  | _ => simp [effect] at h

/-- A command changes an element of the brightness array only by a SETGS of its channel. -/
theorem effect_changes_gs {i : Instr} {s : State} {c : Nat} (h : (effect i s).gs[c]? ≠ s.gs[c]?) :
    c < s.cfg.nCh ∧ ∃ v, i = .setgs c v ∧ (effect i s).gs[c]? = some (BitVec.ofNat 12 (min v 4095)) := by
  cases i with
  | setgs j v =>
    simp only [effect, State.writeGs_gs, State.markSetgs_gs, State.markSetgs_cfg, ← greyOf_eq] at h ⊢
    grind
  | _ => simp [effect] at h

/-- Settles O37: of the kinds of step only an accepted word changes an array, by a setter's effect. -/
theorem arraysChangeOnlyBySetters : Obligations.ArraysChangeOnlyBySetters := by
  intro s t c h hr
  obtain ⟨ts, n, rfl⟩ | ⟨ts, n, p, w, ws, htakes, -, rfl⟩ | ⟨ts, n, hm⟩ := step_kinds_of_not_reset h hr
  · exact ⟨fun hne => absurd rfl hne, fun hne => absurd rfl hne⟩
  · constructor
    · intro hne
      obtain ⟨hc, v, hi, hv⟩ := effect_changes_dc (i := decode w) (c := c)
        (s := State.setPort { s with turns := ts, choices := n } p ws) (by simpa using hne)
      exact ⟨by simpa using hc, p, w, v, htakes, hi, hv⟩
    · intro hne
      obtain ⟨hc, v, hi, hv⟩ := effect_changes_gs (i := decode w) (c := c)
        (s := State.setPort { s with turns := ts, choices := n } p ws) (by simpa using hne)
      exact ⟨by simpa using hc, p, w, v, htakes, hi, hv⟩
  · exact ⟨fun hne => absurd (congrArg (·[c]?) hm.dc) hne, fun hne => absurd (congrArg (·[c]?) hm.gs) hne⟩

end Sys2Proof.Machine
end

section
/-! Programming is not preempted, and an invocation is entered and left in one way
(spec/42_programming_sequencer.md R87, spec/43_refresh_cycle_engine.md R105, spec/60_exceptions.md section 3). -/

namespace Sys2Proof.Machine

/-! ### During programming -/

theorem accepted_in_isP {s : State} (hp : s.phase.isP = true) {i : Instr} (ha : accepts i s = true) :
    i = .tick := by
  by_contra ht
  by_cases hi : i = .program
  · rw [hi, accepts_program] at ha
    simp [ha, Phase.isP] at hp
  · simp [(accepts_iff_not_isP ht hi s).mp ha] at hp

/-- The markers of a TICK in a P phase: M2, and M1 and M7 by their own rules. -/
theorem effect_tick_markers_of_isP {s : State} (hp : s.phase.isP = true) (m : Marker) :
    (effect .tick s).markers.has m =
      (s.markers.has m || decide (m = .m2) || (decide (m = .m1) && !s.progIssued) ||
        (decide (m = .m7) && s.tickPending)) := by
  have hr := Phase.isP_not_refresh hp
  cases m <;> simp [effect, Markers.has_addIf, hp, hr]

/-- A P phase is followed by a P phase, the last one by `IDLE`. -/
theorem Micro.phase_of_isP {s t : State} (h : Micro s t) (hp : s.phase.isP = true) :
    t.phase.isP = true ∨ (s.phase = .pUnblank ∧ t.phase = .idle) := by
  cases h with
  | pData | pClkH | pXlatH | pXlatL => exact .inl rfl
  | pClkL => simp only [State.goto_phase]; split <;> exact .inl rfl
  | pUnblank hp => exact .inr ⟨hp, rfl⟩
  | _ => simp_all [Phase.isP]

/-- Settles O38: a word taken in a P phase is a TICK, whose effect is known, and a micro-step there is one drive. -/
theorem programmingIsNotPreempted : Obligations.ProgrammingIsNotPreempted := by
  intro s hp
  refine ⟨fun i => accepted_in_isP hp, ?tick, ?step⟩
  case tick =>
    exact ⟨_, exec_of_accepts (accepts_tick s), rfl, effect_tick_markers_of_isP hp, by simp [effect]⟩
  case step =>
    intro t h hr
    obtain ⟨ts, c, rfl⟩ | ⟨ts, c, p, w, ws, htakes, -, rfl⟩ | ⟨ts, c, hm⟩ := step_kinds_of_not_reset h hr
    · exact ⟨rfl, rfl, rfl, rfl, rfl, rfl, rfl, .inl hp, .inl ⟨rfl, rfl⟩⟩
    · have hw : decode w = .tick := accepted_in_isP hp htakes.2
      rw [hw]
      refine ⟨?_, ?_, ?_, ?_, ?_, ?_, ?_, .inl ?_, .inr ⟨p, w, htakes, hw, ?_, ?_, ?_, ?_, ?_⟩⟩ <;>
        simp [effect, Markers.has_addIf, hp]
    · obtain ⟨x, b, p, rfl, -⟩ := hm.drive_of_isP hp
      exact ⟨rfl, rfl, rfl, rfl, rfl, rfl, rfl, hm.phase_of_isP hp, .inl ⟨rfl, rfl⟩⟩

/-! ### Entry to and return from an invocation -/

/-- An accepted command moves the phase only from `IDLE` into the P phases. -/
theorem effect_phase_of_accepts {i : Instr} {s : State} (ha : accepts i s = true) :
    (effect i s).phase = s.phase ∨ (s.phase = .idle ∧ (effect i s).phase.isP = true) := by
  by_cases hi : i = .program
  · subst hi
    refine .inr ⟨(accepts_program s).mp ha, ?_⟩
    have entry : (effect .program s).phase = programEntry s.cfg := by rw [effect]
    obtain e | ⟨e, -⟩ := programEntry_cases s.cfg <;> rw [entry, e] <;> rfl
  · exact .inl (effect_phase hi s)

/-- An accepted command neither enters nor leaves an invocation. -/
theorem effect_isRefresh {i : Instr} {s : State} (ha : accepts i s = true) :
    (effect i s).phase.isRefresh = s.phase.isRefresh ∧ ((effect i s).phase = .rBlank → s.phase = .rBlank) := by
  obtain e | ⟨e, hP⟩ := effect_phase_of_accepts ha
  · rw [e]; exact ⟨rfl, id⟩
  · refine ⟨?_, fun h => ?_⟩
    · rw [Phase.isP_not_refresh hP, e]; rfl
    · simp [h, Phase.isP] at hP

theorem effect_tickPending_mono (i : Instr) {s : State} (h : s.tickPending = true) :
    (effect i s).tickPending = true := by
  by_cases hi : i = .tick
  · rw [hi, effect]
  · rw [effect_tickPending hi, h]

theorem Micro.clears_tickPending {s t : State} (h : Micro s t) (hs : s.tickPending = true)
    (ht : t.tickPending = false) : s.phase = .idle ∧ t.phase = .rBlank := by
  cases h with
  | start hp => exact ⟨hp, rfl⟩
  | _ => simp [hs] at ht

/-- The refresh start is the one micro-step into an invocation. -/
theorem Micro.enters_refresh {s t : State} (h : Micro s t)
    (ht : (t.phase = .rBlank ∧ s.phase ≠ .rBlank) ∨ (t.phase.isRefresh = true ∧ s.phase.isRefresh = false)) :
    s.phase = .idle ∧ s.tickPending = true ∧ t = refreshStart s := by
  cases h with
  | start hp htick => exact ⟨hp, htick, rfl⟩
  | pClkL | sClkL | rBlank | rVprg | rClrLatch | gateOpen =>
    grind [Phase.isRefresh, Phase.isR, Phase.isS, State.afterBlank, State.afterVprg, State.afterLatch, clockOutEntry,
      State.goto, State.drive]
  | _ => simp_all [Phase.isRefresh, Phase.isR, Phase.isS]

/-- The closed gate and the end of a clock-out are the two micro-steps out of an invocation. -/
theorem Micro.leaves_refresh {s t : State} (h : Micro s t) (hs : s.phase.isRefresh = true)
    (ht : t.phase.isRefresh = false) :
    ((s.phase = .rTest ∧ s.pendingUpdate = false) ∨ s.phase = .sDone) ∧ t.phase = .idle ∧ t.first = false := by
  cases h with
  | gateClosed hp hu => exact ⟨.inl ⟨hp, hu⟩, rfl, rfl⟩
  | sDone hp => exact ⟨.inr hp, rfl, rfl⟩
  | pClkL | sClkL | rBlank | rVprg | rClrLatch | gateOpen =>
    grind [Phase.isRefresh, Phase.isR, Phase.isS, State.afterBlank, State.afterVprg, State.afterLatch, clockOutEntry,
      State.goto, State.drive]
  | _ => simp_all [Phase.isRefresh, Phase.isR, Phase.isS]

/-- Settles O39: a command goes to no refresh phase and from none, and the micro-steps that do are the refresh start
and the two ends. -/
theorem refreshStartsOnlyFromIdle : Obligations.RefreshStartsOnlyFromIdle := by
  intro s t h
  obtain ⟨ts, c, rfl⟩ | ⟨ts, c, p, w, ws, ⟨-, ha⟩, -, rfl⟩ | ⟨ts, c, hm⟩ | ⟨hr, ts, c, rfl⟩ := step_kinds h
  · simp_all
  · have ha' : accepts (decode w) (State.setPort { s with turns := ts, choices := c } p ws) = true :=
      (accepts_congr _ (by simp)).trans ha
    obtain ⟨hsame, hblank⟩ := effect_isRefresh ha'
    rw [State.setPort_phase] at hsame hblank
    refine ⟨fun ht => ?_, fun hs ht => ?_, fun hs ht => ?_⟩
    · obtain ⟨ht, hne⟩ | ⟨ht, hs⟩ := ht
      · exact absurd (hblank ht) hne
      · simp [hsame, hs] at ht
    · simp [effect_tickPending_mono (decode w) (s := State.setPort { s with turns := ts, choices := c } p ws)
        (by simpa using hs)] at ht
    · simp [hsame, hs] at ht
  · refine ⟨fun ht => ?_, fun hs ht => .inr (hm.clears_tickPending hs ht),
      fun hs ht => .inr (hm.leaves_refresh hs ht)⟩
    obtain ⟨hp, htick, rfl⟩ := hm.enters_refresh ht
    exact ⟨hp, htick, rfl, rfl, rfl, rfl⟩
  · refine ⟨fun ht => ?_, fun _ _ => .inl hr, fun _ _ => .inl hr⟩
    simp [Phase.isRefresh, Phase.isR, Phase.isS] at ht

end Sys2Proof.Machine
end

section
/-! Whole sequences: what a run of the sequencer with no other agent's step appends to the trace
(spec/42_programming_sequencer.md section 4, spec/43 section 4, spec/44 section 4). -/

namespace Sys2Proof.Machine

/-! ### Several drives at once -/

/-- The state after the drives that a list of events records, in order. -/
def State.emit (s : State) (es : List Event) : State :=
  { s with lines := levelsAfter s.lines es, trace := s.trace ++ es }

@[simp] theorem State.emit_nil (s : State) : s.emit [] = s := by simp [State.emit]

@[simp] theorem State.emit_emit (s : State) (es fs : List Event) : (s.emit es).emit fs = s.emit (es ++ fs) := by
  simp [State.emit]

@[simp] theorem State.goto_emit (s : State) (p : Phase) (es : List Event) :
    (s.goto p).emit es = (s.emit es).goto p := rfl

@[simp] theorem State.goto_goto (s : State) (p q : Phase) : (s.goto p).goto q = s.goto q := rfl

@[simp] theorem State.emit_cfg (s : State) (es : List Event) : (s.emit es).cfg = s.cfg := rfl

/-- A drive is the emission of one event (spec/48_receiver_observer.md R116). -/
theorem State.drive_eq_emit (s : State) (x : Line) (b : Level) :
    s.drive x b = s.emit [{ line := x, level := b }] := rfl

theorem State.goto_of_phase {s : State} {p : Phase} (h : s.phase = p) : s.goto p = s := by
  subst h; rfl

/-! ### A shift, bit by bit -/

/-- From `s`, whatever was emitted before, three micro-steps from the data phase of each position send its bit and
go to the next position, or to the phase `last`. -/
def SendsBits (s : State) (data : Nat → Phase) (last : Phase) (bits : List Level) : Prop :=
  ∀ (k : Nat) (hk : k < bits.length) (es : List Event),
    runSequencer 3 ((s.emit es).goto (data k)) =
      .next ((s.emit (es ++ bitEvents bits[k])).goto (if k + 1 < bits.length then data (k + 1) else last))

/-- The bits from position `k` on are sent in order, and the shift ends in `last`; with none left it is there. -/
theorem SendsBits.run {s : State} {data : Nat → Phase} {last : Phase} {bits : List Level}
    (h : SendsBits s data last bits) (m : Nat) {k : Nat} (hk : k + m = bits.length) (es : List Event) :
    runSequencer (3 * m) ((s.emit es).goto (if k < bits.length then data k else last)) =
      .next ((s.emit (es ++ (bits.drop k).flatMap bitEvents)).goto last) := by
  induction m generalizing k es with
  | zero =>
    have hdrop : bits.drop k = [] := List.drop_eq_nil_of_le (by omega)
    rw [if_neg (by omega), hdrop]
    simp [runSequencer]
  | succ m ih =>
    have hlt : k < bits.length := by omega
    rw [if_pos hlt, show 3 * (m + 1) = 3 + 3 * m by omega, runSequencer_add 3 _ (h k hlt es), ih (by omega),
      List.drop_eq_getElem_cons hlt, List.flatMap_cons, List.append_assoc]

theorem SendsBits.run_all {s : State} {data : Nat → Phase} {last : Phase} {bits : List Level}
    (h : SendsBits s data last bits) :
    runSequencer (3 * bits.length) (s.goto (if 0 < bits.length then data 0 else last)) =
      .next ((s.emit (bits.flatMap bitEvents)).goto last) := by
  simpa using h.run bits.length (k := 0) (by simp) []

/-! ### The programming sequence -/

@[simp] theorem length_dcBits (g : Config) (dc : List Dot) : (dcBits g dc).length = g.lDC := by
  simp [dcBits]

@[simp] theorem length_gsBits (g : Config) (gs : List Grey) : (gsBits g gs).length = g.lGS := by
  simp [gsBits]

theorem sendsBits_dc {s : State} (ha : s.ArraysFit) : SendsBits s .pData .pXlatH (dcBits s.cfg s.dc) := by
  obtain ⟨hdc, -⟩ := ha
  intro k hk es
  rw [length_dcBits] at hk
  have hbit : dcBit s.dc k = some ((dcBits s.cfg s.dc)[k]) := by
    rw [dcBit_of_lt (by rw [Config.lDC_eq] at hk; omega)]
    simp [dcBits]
  have run := ((runSequencer_succ 2 (microStep_of_pData (s := (s.emit es).goto (.pData k)) rfl hbit)).trans
    (runSequencer_succ 1 (microStep_of_pClkH rfl))).trans (runSequencer_succ 0 (microStep_of_pClkL rfl))
  rw [run, length_dcBits]
  simp [runSequencer, State.drive_eq_emit, bitEvents]

theorem sendsBits_nil (s : State) (data : Nat → Phase) (last : Phase) : SendsBits s data last [] :=
  fun k hk => absurd hk (Nat.not_lt_zero k)

/-- PROGRAM leaves the correction array as it is, so the shift it starts sends the bits of that array. -/
theorem sendsBits_after_program {s : State} (ha : s.ArraysFit) :
    SendsBits (effect .program s) .pData .pXlatH (dcBits s.cfg s.dc) := by
  simpa only [effect_cfg, effect_dc (i := .program) (by decide)] using sendsBits_dc (effect_arraysFit ha .program)

/-- The programming sequence is the shift, the latch pulse and the unblanking (R88). -/
theorem runSequencer_after_program {s : State}
    (hs : SendsBits (effect .program s) .pData .pXlatH (dcBits s.cfg s.dc)) :
    runSequencer (3 * s.cfg.lDC + 3) (effect .program s) =
      .next (((effect .program s).emit (programEvents s.cfg s.dc)).goto .idle) := by
  have entry : (effect .program s).phase = if 0 < s.cfg.lDC then .pData 0 else .pXlatH := by
    simp [effect, programEntry]
  have shift := hs.run_all
  rw [length_dcBits, State.goto_of_phase entry] at shift
  rw [runSequencer_add _ 3 shift, runSequencer_succ 2 (microStep_of_pXlatH rfl),
    runSequencer_succ 1 (microStep_of_pXlatL rfl), runSequencer_succ 0 (microStep_of_pUnblank rfl)]
  simp [runSequencer, State.drive_eq_emit, programEvents]

/-- The levels that a shift leaves: SCLK low, SIN at the last bit (spec/42_programming_sequencer.md R90). -/
theorem levelsAfter_bits {l : Lines} (hl : l.sclk = false) (bs : List Level) :
    levelsAfter l (bs.flatMap bitEvents) = { l with sin := bs.getLastD l.sin } := by
  induction bs generalizing l with
  | nil => rfl
  | cons b bs ih =>
    have bit : levelsAfter l (bitEvents b) = { l with sin := b } := by
      obtain ⟨sclk, sin, xlat, blank, vprg⟩ := l
      cases hl
      rfl
    rw [List.flatMap_cons, levelsAfter_append, bit, ih (l := { l with sin := b }) hl,
      List.getLastD_cons]

/-- Settles O43: the accepted PROGRAM leaves the arrays and enters the shift, which is followed by the latch pulse and
the unblanking. -/
theorem programShiftsTheCorrectionArray : Obligations.ProgramShiftsTheCorrectionArray := by
  intro s ha hp hsclk
  refine ⟨_, _, exec_of_accepts ((accepts_program s).mpr hp),
    runSequencer_after_program (sendsBits_after_program ha), rfl, ?_, ?_, rfl⟩
  · simp [State.emit, effect_trace]
  · simp only [State.goto_lines, State.emit, effect_lines, programEvents, levelsAfter_append,
      levelsAfter_bits hsclk, hsclk]
    rfl

/-! ### The clock-out -/

theorem sendsBits_gs {s : State} (ha : s.ArraysFit) : SendsBits s .sData .sDone (gsBits s.cfg s.gs) := by
  obtain ⟨-, hgs⟩ := ha
  intro k hk es
  rw [length_gsBits] at hk
  have hbit : gsBit s.gs k = some ((gsBits s.cfg s.gs)[k]) := by
    rw [gsBit_of_lt (by rw [Config.lGS_eq] at hk; omega)]
    simp [gsBits]
  have run := ((runSequencer_succ 2 (microStep_of_sData (s := (s.emit es).goto (.sData k)) rfl hbit)).trans
    (runSequencer_succ 1 (microStep_of_sClkH rfl))).trans (runSequencer_succ 0 (microStep_of_sClkL rfl))
  rw [run, length_gsBits]
  simp [runSequencer, State.drive_eq_emit, bitEvents]

theorem runSequencer_clockOut {s : State}
    (hs : SendsBits { s with pendingUpdate := false } .sData .sDone (gsBits s.cfg s.gs))
    (hp : s.phase = .rTest) (hu : s.pendingUpdate = true) :
    runSequencer (3 * s.cfg.lGS + 2) s =
      .next (endInvocation ({ s with pendingUpdate := false }.emit (shiftEvents s.cfg s.gs)) true) := by
  have gate := microStep_of_rTest_open hp hu
  have shift := hs.run_all
  rw [length_gsBits] at shift
  rw [show 3 * s.cfg.lGS + 2 = 3 * s.cfg.lGS + 1 + 1 by omega, runSequencer_succ _ gate]
  refine (runSequencer_add _ 1 shift).trans ?_
  rw [runSequencer_succ 0 (microStep_of_sDone rfl)]
  rfl

/-- Settles O46: the open gate, the shift, and the end that asks for a latch. -/
theorem clockOutShiftsTheBrightnessArray : Obligations.ClockOutShiftsTheBrightnessArray := by
  intro s ha hp hu
  have hs := sendsBits_gs (s := { s with pendingUpdate := false }) ha
  exact ⟨_, runSequencer_clockOut hs hp hu, rfl, rfl, rfl, rfl, rfl, rfl, rfl⟩

/-- Settles O47: with no chip the shifts have no bit, so the sequences are those of O43 and O46 with no shift event. -/
theorem zeroChipsShiftNothing : Obligations.ZeroChipsShiftNothing := by
  intro s hn
  have hdc : s.cfg.lDC = 0 := by simp [Config.lDC, hn]
  have hgs : s.cfg.lGS = 0 := by simp [Config.lGS, hn]
  have none_dc : dcBits s.cfg s.dc = [] := List.length_eq_zero_iff.mp ((length_dcBits ..).trans hdc)
  have none_gs : gsBits s.cfg s.gs = [] := List.length_eq_zero_iff.mp ((length_gsBits ..).trans hgs)
  constructor
  · intro hp
    have hrun := runSequencer_after_program (s := s) (none_dc ▸ sendsBits_nil _ _ _)
    rw [hdc] at hrun
    refine ⟨_, _, exec_of_accepts ((accepts_program s).mpr hp), hrun, rfl, ?_⟩
    simp [State.emit, effect_trace, programEvents, none_dc]
  · intro hp hu
    have hrun := runSequencer_clockOut (s := s) (none_gs ▸ sendsBits_nil _ _ _) hp hu
    rw [hgs] at hrun
    refine ⟨_, hrun, rfl, rfl, rfl, ?_⟩
    simp [State.emit, shiftEvents, none_gs]

/-! ### The invocation before its clock-out -/

/-- The state at R_TEST of an invocation started in `s` (spec/43_refresh_cycle_engine.md R102). -/
def State.atGate (s : State) : State :=
  { s.emit (invocationEvents s.lines.vprg s.pendingLatch) with
    phase := .rTest, pendingLatch := false, first := s.lines.vprg, tickPending := false, refreshStarted := true }

/-- The shapes are run: each of the four, by the level of VPRG and by `PendingLatch`, from phase to phase. -/
theorem runSequencer_invocation {s : State} (hp : s.phase = .idle) (ht : s.tickPending = true) :
    runSequencer (invocationSteps s.lines.vprg s.pendingLatch) s = .next s.atGate := by
  cases hv : s.lines.vprg <;> cases hl : s.pendingLatch <;>
    simp [invocationSteps, runSequencer, microStep, hp, ht, hv, hl, stepIdle, stepRBlank, stepRVprg, stepRXlatH,
      stepRXlatL, stepRClrLatch, stepRXclkH, stepRXclkL, stepRUnblank, State.afterBlank, State.afterVprg,
      State.afterLatch, State.atGate, State.emit, invocationEvents, refreshStart, State.goto, State.drive, Lines.after]

theorem State.atGate_lines (s : State) :
    s.atGate.lines = levelsAfter s.lines (invocationEvents s.lines.vprg s.pendingLatch) := rfl

theorem State.atGate_trace (s : State) :
    s.atGate.trace = s.trace ++ invocationEvents s.lines.vprg s.pendingLatch := rfl

/-- The state after the whole of an invocation started in `s` that shifts. -/
def State.afterClockOut (s : State) : State :=
  endInvocation (State.emit { s.atGate with pendingUpdate := false } (shiftEvents s.cfg s.gs)) true

theorem runSequencer_updating_invocation {s : State} (ha : s.ArraysFit) (hp : s.phase = .idle)
    (ht : s.tickPending = true) (hu : s.pendingUpdate = true) :
    runSequencer (invocationSteps s.lines.vprg s.pendingLatch + (3 * s.cfg.lGS + 2)) s = .next s.afterClockOut :=
  (runSequencer_add _ _ (runSequencer_invocation hp ht)).trans
    (runSequencer_clockOut (s := s.atGate) (sendsBits_gs (s := { s.atGate with pendingUpdate := false }) ha) rfl hu)

/-- The levels that an invocation's events before R_TEST leave: SCLK and XLAT end low where they were pulsed. -/
theorem levelsAfter_invocation (l : Lines) (latch : Bool) :
    levelsAfter l (invocationEvents l.vprg latch) =
      { sclk := l.sclk && !l.vprg, sin := l.sin, xlat := l.xlat && !latch, blank := false, vprg := false } := by
  obtain ⟨sclk, sin, xlat, blank, vprg⟩ := l
  cases vprg <;> cases latch <;> simp [invocationEvents, Lines.after, Lines.set]

/-- At R_TEST VPRG is low, and so are SCLK and XLAT where they were low. -/
theorem State.atGate_lines_low {s : State} (hsclk : s.lines.sclk = false) (hxlat : s.lines.xlat = false) :
    s.atGate.lines.sclk = false ∧ s.atGate.lines.xlat = false ∧ s.atGate.lines.vprg = false := by
  rw [State.atGate_lines, levelsAfter_invocation]
  simp [hsclk, hxlat]

theorem State.afterClockOut_vprg {s : State} (hsclk : s.lines.sclk = false) (hxlat : s.lines.xlat = false) :
    s.afterClockOut.lines.vprg = false := by
  obtain ⟨hs, -, hv⟩ := State.atGate_lines_low hsclk hxlat
  have hl : s.afterClockOut.lines = levelsAfter s.atGate.lines (shiftEvents s.cfg s.gs) := rfl
  rw [hl, shiftEvents, levelsAfter_bits hs]
  exact hv

/-- Settles O45: the run ends in atGate, and the levels follow from its events. -/
theorem invocationShapes : Obligations.InvocationShapes := by
  intro s hp ht
  refine ⟨_, runSequencer_invocation hp ht, rfl, rfl, rfl, rfl, rfl, rfl, State.atGate_lines s, ?_⟩
  rw [State.atGate_lines, levelsAfter_invocation]
  exact ⟨rfl, rfl, rfl, fun h => by simp [h], fun h => by simp [h], rfl⟩

end Sys2Proof.Machine
end

section
/-! Every started sequence ends (spec/42_programming_sequencer.md R87, spec/70_reset_and_hazards.md R158). -/

namespace Sys2Proof.Machine

/-- At most so many micro-steps from a phase to `IDLE`, in a state that meets the invariant: the latch phases are not of
a first invocation, so `R_CLRLATCH` is followed by `R_UNBLANK`, and a first one has no latch phases. -/
def Phase.stepsLeft (g : Config) : Phase → Nat
  | .idle => 0
  | .pData k => 3 * (g.lDC - k) + 3
  | .pClkH k => 3 * (g.lDC - k) + 2
  | .pClkL k => 3 * (g.lDC - k) + 1
  | .pXlatH => 3
  | .pXlatL => 2
  | .pUnblank => 1
  | .rBlank => 3 * g.lGS + 7
  | .rVprg => 3 * g.lGS + 6
  | .rXlatH => 3 * g.lGS + 6
  | .rXlatL => 3 * g.lGS + 5
  | .rClrLatch => 3 * g.lGS + 4
  | .rXclkH => 3 * g.lGS + 5
  | .rXclkL => 3 * g.lGS + 4
  | .rUnblank => 3 * g.lGS + 3
  | .rTest => 3 * g.lGS + 2
  | .sData k => 3 * (g.lGS - k) + 1
  | .sClkH k => 3 * (g.lGS - k)
  | .sClkL k => 3 * (g.lGS - k) - 1
  | .sDone => 1

/-- A micro-step of a started sequence takes one from the bound. -/
theorem Micro.stepsLeft_lt {s t : State} (h : Micro s t) (hi : s.Inv) (hp : s.phase ≠ .idle) :
    t.phase.stepsLeft s.cfg < s.phase.stepsLeft s.cfg := by
  obtain ⟨-, hfits, -, ⟨-, hfirst, -⟩, ⟨hlatch, -, hnot⟩, -⟩ := hi
  cases h with
  | pClkL | sClkL | rBlank | rVprg | rClrLatch | gateOpen =>
    grind [Phase.stepsLeft, Phase.fits, Phase.firstOnly, Phase.latching, State.afterBlank, State.afterVprg,
      State.afterLatch, clockOutEntry, State.goto, State.drive]
  | _ => simp_all [Phase.stepsLeft, Phase.fits]

/-- The sequencer alone reaches `IDLE` within the bound, and a tick that was pending stays so. -/
theorem exists_run_to_idle (n : Nat) {s : State} (hi : s.Inv) (hn : s.phase.stepsLeft s.cfg ≤ n) :
    ∃ m t, m ≤ n ∧ runSequencer m s = .next t ∧ t.phase = .idle ∧ t.tickPending = s.tickPending := by
  induction n generalizing s with
  | zero =>
    refine ⟨0, s, le_rfl, rfl, ?_, rfl⟩
    by_contra hp
    obtain ⟨t, ht⟩ := microStep_total hi
    exact absurd ((micro_of_microStep ht).stepsLeft_lt hi hp) (by omega)
  | succ n ih =>
    by_cases hp : s.phase = .idle
    · exact ⟨0, s, Nat.zero_le _, rfl, hp, rfl⟩
    · obtain ⟨t, ht⟩ := microStep_total hi
      have hm := micro_of_microStep ht
      have hlt := hm.stepsLeft_lt hi hp
      obtain ⟨m, u, hmn, hrun, hidle, htick⟩ := ih (hm.keeps_inv hi) (by rw [hm.cfg]; omega)
      exact ⟨m + 1, u, by omega, (runSequencer_succ m ht).trans hrun, hidle, htick.trans (hm.tick_flags hp).1⟩

theorem Phase.stepsLeft_of_isP {p : Phase} (g : Config) (h : p.isP = true) : p.stepsLeft g ≤ 3 * g.lDC + 3 := by
  cases p <;> simp_all [Phase.isP, Phase.stepsLeft] <;> omega

theorem Phase.stepsLeft_of_isRefresh {p : Phase} (g : Config) (h : p.isRefresh = true) :
    p.stepsLeft g ≤ 3 * g.lGS + 7 := by
  cases p <;> simp_all [Phase.isRefresh, Phase.isR, Phase.isS, Phase.stepsLeft] <;> omega

/-- Settles O48: each micro-step takes one from the bound, whose value at the start is that of the longest
sequence of the kind. -/
theorem everyStartedSequenceEnds : Obligations.EveryStartedSequenceEnds := by
  intro s hi
  refine ⟨fun hp => ?_, fun hr => ?_, fun hp ht => ?_⟩
  · obtain ⟨m, t, hm, hrun, hidle, -⟩ := exists_run_to_idle _ hi (Phase.stepsLeft_of_isP s.cfg hp)
    exact ⟨m, t, hm, hrun, hidle⟩
  · obtain ⟨m, t, hm, hrun, hidle, -⟩ := exists_run_to_idle _ hi (Phase.stepsLeft_of_isRefresh s.cfg hr)
    exact ⟨m, t, hm, hrun, hidle⟩
  · have hstart := microStep_of_idle_tick hp ht
    obtain ⟨m, t, hm, hrun, hidle, htick⟩ := exists_run_to_idle (3 * s.cfg.lGS + 7)
      ((micro_of_microStep hstart).keeps_inv hi) le_rfl
    exact ⟨m + 1, t, Nat.succ_pos m, by omega, (runSequencer_succ m hstart).trans hrun, hidle, htick⟩

end Sys2Proof.Machine
end

section
/-! What an observer of the trace sees: the captured bits and the reference receiver
(spec/48_receiver_observer.md). -/

namespace Sys2Proof.Machine

/-! ### The captured bits -/

theorem captureFrom_bits {l : Lines} (hl : l.sclk = false) (bs : List Level) :
    captureFrom l (bs.flatMap bitEvents) = bs := by
  induction bs generalizing l with
  | nil => rfl
  | cons b bs ih =>
    have bit : captureFrom l (bitEvents b) = [b] := by
      simp [captureFrom, bitEvents, isRiseOf, isRise, Lines.after, Lines.set, Lines.get, hl]
    have after := levelsAfter_bits hl [b]
    rw [List.flatMap_singleton] at after
    rw [List.flatMap_cons, captureFrom_append, bit, after, ih (l := { l with sin := [b].getLastD l.sin }) hl]
    rfl

/-- Settles O44: SIN is captured at each rising edge of the shift, and the rest of the sequence has no edge of
SCLK. -/
theorem captureOfProgramIsTheCorrectionArray : Obligations.CaptureOfProgramIsTheCorrectionArray := by
  rintro s - hsclk htr
  rw [State.TraceMatchesLines] at htr
  have tail (l : Lines) : captureFrom l [{ line := .xlat, level := true }, { line := .xlat, level := false },
      { line := .blank, level := false }] = [] := by simp [captureFrom, isRiseOf]
  rw [capture, capture, captureFrom_append, htr, programEvents, captureFrom_append, captureFrom_bits hsclk, tail,
    List.append_nil]

/-! ### The bits of an array, and the array from its bits -/

/-- The bits of an array of `n` elements of width `w`, element 0 first, each most significant bit first. -/
def arrayBits {w : Nat} (n : Nat) (xs : List (BitVec w)) : List Level :=
  (List.range (w * n)).map fun k => (xs.getD (k / w) 0).getLsbD (w - 1 - k % w)

theorem dcBits_eq_arrayBits (g : Config) (dc : List Dot) : dcBits g dc = arrayBits g.nCh dc := by
  rw [dcBits, Config.lDC_eq]; rfl

theorem gsBits_eq_arrayBits (g : Config) (gs : List Grey) : gsBits g gs = arrayBits g.nCh gs := by
  rw [gsBits, Config.lGS_eq]; rfl

/-- The bits of one element stand together, from position `w * c` on. -/
theorem arrayBits_element {w n c : Nat} (xs : List (BitVec w)) (hc : c < n) :
    ((arrayBits n xs).drop (w * c)).take w = (List.range w).map fun j => (xs.getD c 0).getLsbD (w - 1 - j) := by
  have hle : w * (c + 1) ≤ w * n := Nat.mul_le_mul_left w hc
  rw [Nat.mul_succ] at hle
  apply List.ext_getElem
  · simp [arrayBits]; omega
  · intro j h1 h2
    have hj : j < w := by simpa using h2
    simp only [arrayBits, List.getElem_take, List.getElem_drop, List.getElem_map, List.getElem_range]
    rw [Nat.mul_add_div (by omega), Nat.div_eq_of_lt hj, Nat.mul_add_mod, Nat.mod_eq_of_lt hj, Nat.add_zero]

/-- Reading bits most significant first gives the number whose bits they are. -/
theorem msbFirst_testBit (x n : Nat) :
    msbFirst ((List.range n).map fun j => x.testBit (n - 1 - j)) = x % 2 ^ n := by
  induction n generalizing x with
  | zero => simp [msbFirst, Nat.mod_one]
  | succ n ih =>
    have init : (List.range n).map (fun j => x.testBit (n - j)) =
        (List.range n).map fun j => (x / 2).testBit (n - 1 - j) := by
      refine List.map_congr_left fun j hj => ?_
      rw [List.mem_range] at hj
      rw [← Nat.testBit_add_one, show n - 1 - j + 1 = n - j by omega]
    have snoc (bs : List Level) (b : Level) : msbFirst (bs ++ [b]) = 2 * msbFirst bs + b.toNat := by
      simp [msbFirst]
    rw [List.range_succ, List.map_append, List.map_singleton, snoc]
    simp only [Nat.add_sub_cancel, init, ih, Nat.sub_self, Nat.testBit_zero]
    rw [Nat.pow_succ', Nat.mod_mul, Nat.add_comm]
    congr 1
    obtain e | e := Nat.mod_two_eq_zero_or_one x <;> simp [e]

theorem msbFirst_getLsbD {w : Nat} (x : BitVec w) :
    msbFirst ((List.range w).map fun j => x.getLsbD (w - 1 - j)) = x.toNat :=
  (msbFirst_testBit x.toNat w).trans (Nat.mod_eq_of_lt x.isLt)

/-! ### The receiver's shift register -/

theorem allKnown_map_some (bs : List Level) : allKnown (bs.map some) = some bs := by
  induction bs with
  | nil => rfl
  | cons b bs ih => simp [allKnown, ih]

/-- An element whose bits stand in the shift register from cell `i` on is read back from it (R120). -/
theorem bitsAt_of_arrayBits {w n c i : Nat} {xs : List (BitVec w)} {sr : List (Option Level)} (hc : c < n)
    (hsr : sr.drop i = ((arrayBits n xs).drop (w * c)).map some) :
    (bitsAt sr i w).map (BitVec.ofNat w) = some (xs.getD c 0) := by
  rw [bitsAt, hsr, ← List.map_take, allKnown_map_some, arrayBits_element xs hc]
  simp [msbFirst_getLsbD]

/-- A register of which each cell holds its element of the array holds the array. -/
theorem register_eq {w n : Nat} {xs : List (BitVec w)} (hn : xs.length = n) {f : Nat → Option (BitVec w)}
    (hf : ∀ c, c < n → f c = some (xs.getD c 0)) : (List.range n).map f = xs.map some := by
  apply List.ext_getElem
  · simp [hn]
  · intro c h1 h2
    have hc : c < xs.length := by simpa using h2
    simp [hf c (hn ▸ hc), hc]

/-- The bits of a shift go to the newest cells, and as many of the oldest are dropped (R119). -/
theorem receiveFrom_bits (g : Config) {l : Lines} (hl : l.sclk = false) (r : Receiver) (bs : List Level) :
    receiveFrom g l r (bs.flatMap bitEvents) = { r with sr := (r.sr ++ bs.map some).drop bs.length } := by
  induction bs generalizing l r with
  | nil => simp [receiveFrom]
  | cons b bs ih =>
    have bit : receiveFrom g l r (bitEvents b) = r.shift b := by
      simp [receiveFrom, bitEvents, Receiver.onEvent, isRiseOf, isRise, Lines.after, Lines.set, Lines.get, hl]
    have after := levelsAfter_bits hl [b]
    rw [List.flatMap_singleton] at after
    rw [List.flatMap_cons, receiveFrom_append, bit, after, ih (l := { l with sin := [b].getLastD l.sin }) hl]
    have oldest : (r.shift b).sr ++ bs.map some = (r.sr ++ (b :: bs).map some).drop 1 := by
      rw [Receiver.shift, ← List.drop_append_of_le_length (by simp)]; simp
    rw [oldest, List.drop_drop, Nat.add_comm]
    rfl

/-- A shift register keeps its number of cells (R118). -/
theorem receiveFrom_sr_length (g : Config) (l : Lines) (r : Receiver) (es : List Event) :
    (receiveFrom g l r es).sr.length = r.sr.length := by
  induction es generalizing l r with
  | nil => rfl
  | cons e es ih =>
    rw [receiveFrom, ih, Receiver.onEvent]
    split
    · simp [Receiver.shift]
    · split
      · rw [Receiver.latch]; split <;> rfl
      · rfl

/-! ### The correction register -/

/-- The end of a programming sequence is one latch, with program-select as it is. -/
theorem receiveFrom_program_end (g : Config) {l : Lines} (hl : l.xlat = false) (r : Receiver) :
    receiveFrom g l r [{ line := .xlat, level := true }, { line := .xlat, level := false },
      { line := .blank, level := false }] = r.latch g l.vprg := by
  simp [receiveFrom, Receiver.onEvent, isRiseOf, isRise, Lines.after, Lines.set, Lines.get, hl]

/-- An invocation that is not the first is one latch of the brightness register. -/
theorem receiveFrom_latching_invocation (g : Config) {l : Lines} (hx : l.xlat = false) (r : Receiver) :
    receiveFrom g l r (invocationEvents false true) = r.latch g l.vprg := by
  simp [invocationEvents, receiveFrom, Receiver.onEvent, isRiseOf, isRise, Lines.after, Lines.set, Lines.get, hx]

theorem Config.lDC_le_lGS (g : Config) : g.lDC ≤ g.lGS := by
  simp only [Config.lDC, Config.lGS]; omega

theorem dcr_of_program {g : Config} {dc : List Dot} (hdc : dc.length = g.nCh) :
    (receive g (programEvents g dc)).dcr = dc.map some := by
  have hsr (c : Nat) : (((Receiver.reset g).sr ++ (dcBits g dc).map some).drop g.lDC).drop (g.lGS - g.lDC + 6 * c) =
      ((arrayBits g.nCh dc).drop (6 * c)).map some := by
    have := Config.lDC_le_lGS g
    rw [List.drop_drop, show g.lDC + (g.lGS - g.lDC + 6 * c) = g.lGS + 6 * c by omega, ← List.drop_drop,
      List.drop_left' (by simp [Receiver.reset]), dcBits_eq_arrayBits, List.map_drop]
  rw [receive, programEvents, receiveFrom_append, receiveFrom_bits g rfl, levelsAfter_bits rfl,
    receiveFrom_program_end g rfl]
  simp only [Receiver.latch, Lines.reset, if_true, length_dcBits]
  exact register_eq hdc fun c hc => bitsAt_of_arrayBits hc (hsr c)

/-- Settles O49: the trace is the programming sequence's, and the receiver starts at reset. -/
theorem receiverHoldsTheCorrectionArray : Obligations.ReceiverHoldsTheCorrectionArray := by
  rintro s ha hp - htr
  refine ⟨_, _, exec_of_accepts ((accepts_program s).mpr hp),
    runSequencer_after_program (sendsBits_after_program ha), ?_⟩
  simp only [State.goto_cfg, State.goto_trace, State.emit, effect_cfg, effect_trace, htr, List.nil_append]
  exact dcr_of_program ha.1

/-! ### The brightness register -/

theorem gsr_of_shift_and_latch {g : Config} {gs : List Grey} (hgs : gs.length = g.nCh) {l : Lines}
    (hsclk : l.sclk = false) (hxlat : l.xlat = false) (hvprg : l.vprg = false) {r : Receiver}
    (hr : r.sr.length = g.lGS) :
    (receiveFrom g l r (shiftEvents g gs ++ invocationEvents false true)).gsr = gs.map some := by
  have hsr (c : Nat) : ((r.sr ++ (gsBits g gs).map some).drop g.lGS).drop (12 * c) =
      ((arrayBits g.nCh gs).drop (12 * c)).map some := by
    rw [List.drop_left' hr, gsBits_eq_arrayBits, List.map_drop]
  rw [receiveFrom_append, shiftEvents, receiveFrom_bits g hsclk, levelsAfter_bits hsclk,
    receiveFrom_latching_invocation g (l := { l with sin := (gsBits g gs).getLastD l.sin }) hxlat]
  simp only [Receiver.latch, hvprg, length_gsBits]
  exact register_eq hgs fun c hc => bitsAt_of_arrayBits hc (hsr c)

/-- The events before R_TEST account for the levels there. -/
theorem State.TraceMatchesLines.atGate {s : State} (h : s.TraceMatchesLines) :
    levelsAfter Lines.reset s.atGate.trace = s.atGate.lines := by
  rw [State.TraceMatchesLines] at h
  rw [State.atGate_trace, levelsAfter_append, h, State.atGate_lines]

/-- Settles O50: the first invocation shifts the array into the receiver's register, whatever it held, and the second
latches it with VPRG at 0. -/
theorem receiverHoldsTheBrightnessArray : Obligations.ReceiverHoldsTheBrightnessArray := by
  rintro s ⟨ha, -, ⟨hsclk, hxlat, -⟩, -, -, -, -, htr⟩ hp ht hu
  rw [hp] at hsclk hxlat
  obtain ⟨gsclk, gxlat, gvprg⟩ := State.atGate_lines_low hsclk hxlat
  have hvprg := State.afterClockOut_vprg hsclk hxlat
  have latch := runSequencer_invocation (s := effect .tick s.afterClockOut) (by simp [effect, State.afterClockOut])
    (by simp [effect])
  rw [effect_lines, effect_pendingLatch, hvprg] at latch
  refine ⟨_, _, _, runSequencer_updating_invocation ha hp ht hu, rfl, rfl, exec_of_accepts (accepts_tick _),
    latch, ?_⟩
  have hcfg : (effect .tick s.afterClockOut).atGate.cfg = s.cfg := effect_cfg .tick s.afterClockOut
  have htrace : (effect .tick s.afterClockOut).atGate.trace =
      s.atGate.trace ++ (shiftEvents s.cfg s.gs ++ invocationEvents false true) := by
    rw [State.atGate_trace, effect_trace, effect_lines, effect_pendingLatch, hvprg, ← List.append_assoc]
    rfl
  rw [hcfg, htrace, receive, receiveFrom_append, htr.atGate]
  exact gsr_of_shift_and_latch ha.2 gsclk gxlat gvprg (by rw [receiveFrom_sr_length]; simp [Receiver.reset])

end Sys2Proof.Machine
end

section
/-! The visible output (spec/48_receiver_observer.md R123). -/

namespace Sys2Proof.Machine

/-- Settles O51: the levels after the trace are those of the lines, and the output looks at BLANK alone. -/
theorem blankForcesOutputsOff : Obligations.BlankForcesOutputsOff := by
  intro s c htr
  rw [State.TraceMatchesLines] at htr
  refine ⟨fun hb => ?_, fun hb => ⟨_, _, ?_, rfl, rfl⟩⟩
  · rw [visible, htr, if_pos hb]
  · rw [visible, htr, if_neg (by simp [hb])]

end Sys2Proof.Machine
end
